-- ==== Sys2Proof/Word.lean ====
section
/-! DEFINITION. The word types of the model, the numbers of the device's units, and the operand
types of the commands (R9, R11, R27, R246, Tables 3.6 and 9.2). -/

namespace Sys2Proof

/-- One byte. -/
abbrev Byte := BitVec 8

/-- The bytes of an object, a frame or a transfer, in ascending address order. -/
abbrev Bytes := List Byte

/-- A sparse map from numbers to values in ONE canonical form: keys strictly rising, and no entry
equal to the value an unlisted key reads as. A memory is a `Table Byte`, which is a list of `Host.Cell`. -/
abbrev Table (α : Type) := List (Nat × α)

/-- A byte memory. -/
abbrev Memory := List Host.Cell

/-- Logical core number n, 0 to 287 (Table 2.1). -/
abbrev CoreId := Fin 288
/-- Physical core number p, 0 to 311 (Table 2.1). -/
abbrev PhysId := Fin 312
/-- Link number, 0 to 47 (R246). -/
abbrev LinkId := Fin 48
/-- Glaze engine number g (Table 7.1). -/
abbrev EngineId := Fin 24
/-- Power region number r (Table 9.2). -/
abbrev RegionId := Fin 31
/-- Row index 12 x die + row (Table 2.1). -/
abbrev RowId := Fin 24
/-- Die: 0 P0, 1 P1, 2 Q0, 3 Q1 (Table 12.6). -/
abbrev DieId := Fin 4
/-- Memory interface: 0 to 15 the HBM3E stacks, 16 to 23 the LPDDR5X interfaces (Table 6.1). -/
abbrev IfaceId := Fin 24
/-- Resident slot of an itinerary (R15). -/
abbrev SlotId := Fin 8
/-- Waystation number (R337). -/
abbrev WsId := Fin 48
/-- Board converter k (Table 16.1). -/
abbrev ConvId := Fin 16
/-- Depot descriptor number 0 to 55: inbound 0 to 31, then outbound 0 to 23 (R149). -/
abbrev DescId := Fin 56

/-- The fields of the V slot (Table 3.6) that an operation other than VIMM carries. -/
structure VFields where
  type : BitVec 3
  d : BitVec 5
  a : BitVec 5
  b : BitVec 5
  c : BitVec 5
  rnd : BitVec 2
  fmt : BitVec 4
  rel : BitVec 3
  deriving DecidableEq, Repr

/-- The path a dictionary request came on (Table 14.8). -/
inductive Path where
  | ring0 | ring1 | bar2 | fabric
  deriving DecidableEq, Repr

/-- Who sent a dictionary request: its path and its source field of the journal (Table 14.8):
a station's MAC, a requester ID or a logical address. -/
structure Requester where
  path : Path
  source : BitVec 64
  deriving DecidableEq, Repr

/-- What a steward's bank write names (R77): a bundle address with 32 bytes, or a stage-table index
with 4 bytes. -/
inductive BankTarget where
  | bundle (address : Nat) (value : BitVec 256)
  | stageTable (index : Nat) (value : BitVec 32)
  deriving DecidableEq, Repr

/-- Where a glaze request comes from (R172). -/
inductive GlazeSource where
  | depot (core : CoreId) (desc : Fin 24)
  | fabric
  | steward
  deriving DecidableEq, Repr

/-- Which host window an access goes through (Table 13.2, R335). -/
inductive HostWindow where
  | bar0
  | bar4
  | decoder0
  | decoder1
  deriving DecidableEq, Repr

/-- How the host port was reset (R333). -/
inductive HostReset where
  | flr | hot | linkLoss
  deriving DecidableEq, Repr

/-- The result of an ECC-checked read of a line (R145): clean, corrected, or uncorrectable with its
syndrome bytes. -/
inductive ReadCheck where
  | clean
  | corrected
  | uncorrectable (syndrome : BitVec 32)
  deriving DecidableEq, Repr

/-- The start-up steps of Table 18.6. Steps 6 is per port die (0 Q0, 1 Q1), 4 and 5 name the interface. -/
inductive CalStep where
  | rails
  | dieToDie
  | rowRegulators
  | coreTest
  | hbmStack (stack : Fin 16)
  | lpInterface (i : Fin 8) (rawGiB : Nat)
  | links (portDie : Fin 2)
  | survey
  deriving DecidableEq, Repr

/-- A mesh stop's entry, with what the hop of its next flit turns of the flit's codewords (R144, R305), byte 0 in the low bits:
0 where nothing is turned. -/
structure MeshHop where
  entry : Fin 4096
  error : BitVec 1152 := 0
  deriving DecidableEq, Repr

/-- A die-to-die entry, with what the hop of its next unit turns of the unit's codewords (R144, R305). -/
structure DieHop where
  entry : Fin 16384
  error : BitVec 1152 := 0
  deriving DecidableEq, Repr

/-- A die that is ready after its reset, with the rows of it that have a crossing which failed calibration (R223, R464). -/
structure DieReady where
  die : DieId
  failed : List RowId := []
  deriving DecidableEq, Repr

/-- A run of a glaze engine, with the check error that its datapath finds in it (R194). -/
structure EngineRun where
  engine : EngineId
  error : Bool := false
  deriving DecidableEq, Repr

/-- What the FEC decoder reports of the codewords in which a bale's bytes came (R247, R251): whether one was uncorrectable, and
how many symbols were corrected. -/
structure FecReading where
  uncorrectable : Bool
  symbols : Nat := 0
  deriving DecidableEq, Repr

/-- One PMBus poll's readings of a converter (R405). -/
structure PollReading where
  answered : Bool
  millivolts : BitVec 16
  milliamps : BitVec 32
  temperature : BitVec 32
  statusWord : BitVec 16
  deriving DecidableEq, Repr

/-- The bytes of a start message (Table 13.6), decoded. -/
structure StartMsg where
  axis : Nat
  slot : SlotId
  status : Nat
  number : BitVec 32
  hash8 : BitVec 64
  stage : BitVec 64
  index : BitVec 16
  startAt : BitVec 64
  failing : BitVec 20
  notices : List (BitVec 32)
  deriving DecidableEq, Repr

end Sys2Proof
end

