-- ==== Sys2Proof/Syntax.lean ====
section
/-! DEFINITION. The commands of the device: one constructor per row of spec/opcode_table.json, in the
table's order. The table gives no operands; each constructor carries what its rule names. -/

namespace Sys2Proof

inductive Instr where
  /-- BUNDLE_ISSUE (R58): A core issues one bundle from its active bank; all slots read the pre-issue state, then the loop nest and address generators step. -/
  | bundleIssue (core : CoreId)
  /-- STALL_RELEASE (R52): A stalled bundle issues once its hazard or interlock point has cleared, each stalled cycle having added one to lateness. -/
  | stallRelease (core : CoreId)
  /-- ADD (R60): X[d] := X[a] + X[b]. -/
  | add (core : CoreId) (d a b : BitVec 3)
  /-- SUB (R60): X[d] := X[a] - X[b]. -/
  | sub (core : CoreId) (d a b : BitVec 3)
  /-- AND (R60): X[d] := X[a] and X[b]. -/
  | and (core : CoreId) (d a b : BitVec 3)
  /-- OR (R60): X[d] := X[a] or X[b]. -/
  | or (core : CoreId) (d a b : BitVec 3)
  /-- XOR (R60): X[d] := X[a] xor X[b]. -/
  | xor (core : CoreId) (d a b : BitVec 3)
  /-- SHL (R60): Shifts X[a] left by X[b][5:0]. -/
  | shl (core : CoreId) (d a b : BitVec 3)
  /-- SHR (R60): Shifts X[a] logically right by X[b][5:0]. -/
  | shr (core : CoreId) (d a b : BitVec 3)
  /-- SAR (R60): Shifts X[a] arithmetically right by X[b][5:0]. -/
  | sar (core : CoreId) (d a b : BitVec 3)
  /-- MUL (R60): X[d] := low 64 bits of X[a] x X[b]. -/
  | mul (core : CoreId) (d a b : BitVec 3)
  /-- MOV (R60): X[d] := X[a]; field b must be zero. -/
  | mov (core : CoreId) (d a b : BitVec 3)
  /-- ADDI (R60): X[d] := X[a] + sign-extended imm24. -/
  | addi (core : CoreId) (d a : BitVec 3) (imm24 : BitVec 24)
  /-- MOVI (R60): X[d] := sign-extended imm24. -/
  | movi (core : CoreId) (d a : BitVec 3) (imm24 : BitVec 24)
  /-- SHLI (R60): X[d] := X[a] shifted left by imm24[5:0]. -/
  | shli (core : CoreId) (d a : BitVec 3) (imm24 : BitVec 24)
  /-- CMP (R69): Writes a K register from a relation of two operands, reading each operand once it becomes readable. -/
  | cmp (core : CoreId) (k : BitVec 2) (rel : BitVec 3) (type mode : BitVec 2) (a : BitVec 3) (low : BitVec 16)
  /-- BR (R68): Opens a branch region with two paths and a join, starting the region counter and the shadow window. -/
  | br (core : CoreId) (k : BitVec 2) (sense predict : Bool) (n t j : BitVec 10)
  /-- LOOP (R66): Opens loop level i with a trip count and start address. -/
  | loop (core : CoreId) (level : BitVec 2) (trips : BitVec 24)
  /-- AGB (R67): Sets an address generator's base from imm24 plus optionally an X register. -/
  | agb (core : CoreId) (g : BitVec 4) (a : BitVec 3) (imm24 : BitVec 24) (useX : Bool)
  /-- AGS (R67): Sets one loop-level stride of an address generator. -/
  | ags (core : CoreId) (g : BitVec 4) (level : BitVec 2) (stride : BitVec 24)
  /-- CSRC (R35): Selects the event source of a C counter. -/
  | csrc (core : CoreId) (c : BitVec 2) (source : BitVec 3)
  /-- CADD (R35): Adds a sign-extended immediate to a C counter modulo 2^32. -/
  | cadd (core : CoreId) (c : BitVec 2) (imm16 : BitVec 16)
  /-- CRD (R35): Reads a C counter into an X register, zero-extended. -/
  | crd (core : CoreId) (d : BitVec 3) (c : BitVec 2)
  /-- STG (R60): Reads stage number, stage parameter, logical core or logical device into an X register. -/
  | stg (core : CoreId) (d sel : BitVec 3)
  /-- VADD (R61): Lane-wise addition of two vector registers. -/
  | vadd (core : CoreId) (f : VFields)
  /-- VSUB (R61): Lane-wise subtraction of two vector registers. -/
  | vsub (core : CoreId) (f : VFields)
  /-- VMUL (R61): Lane-wise multiplication of two vector registers. -/
  | vmul (core : CoreId) (f : VFields)
  /-- VFMA (R90): Lane-wise a x b + c with one rounding. -/
  | vfma (core : CoreId) (f : VFields)
  /-- VMIN (R479): Lane minimum under IEEE 754 minimum. -/
  | vmin (core : CoreId) (f : VFields)
  /-- VMAX (R479): Lane maximum under IEEE 754 maximum. -/
  | vmax (core : CoreId) (f : VFields)
  /-- VCMP (R61): Sets each lane to all ones where a rel b holds, else zero. -/
  | vcmp (core : CoreId) (f : VFields)
  /-- VSEL (R61): Selects a where c is non-zero, else b, lane by lane. -/
  | vsel (core : CoreId) (f : VFields)
  /-- VAND (R61): Lane-wise bitwise and. -/
  | vand (core : CoreId) (f : VFields)
  /-- VOR (R61): Lane-wise bitwise or. -/
  | vor (core : CoreId) (f : VFields)
  /-- VXOR (R61): Lane-wise bitwise xor. -/
  | vxor (core : CoreId) (f : VFields)
  /-- VSHL (R86): Shifts each lane of a left by the count in the same lane of b. -/
  | vshl (core : CoreId) (f : VFields)
  /-- VSHR (R86): Shifts each lane of a logically right by the lane count of b. -/
  | vshr (core : CoreId) (f : VFields)
  /-- VSAR (R86): Shifts each lane of a arithmetically right by the lane count of b. -/
  | vsar (core : CoreId) (f : VFields)
  /-- VEXP2 (R92): Correctly rounded FP32 exp2 of each lane. -/
  | vexp2 (core : CoreId) (f : VFields)
  /-- VLOG2 (R92): Correctly rounded FP32 log2 of each lane. -/
  | vlog2 (core : CoreId) (f : VFields)
  /-- VRCP (R92): Correctly rounded FP32 reciprocal of each lane. -/
  | vrcp (core : CoreId) (f : VFields)
  /-- VRSQ (R92): Correctly rounded FP32 reciprocal square root of each lane. -/
  | vrsq (core : CoreId) (f : VFields)
  /-- VCVT (R482): Converts lanes of a to the lane format in fmt, placing lanes by index. -/
  | vcvt (core : CoreId) (f : VFields)
  /-- VPACK (R89): Packs a into a storage format, choosing MX block scales into b. -/
  | vpack (core : CoreId) (f : VFields)
  /-- VUNPK (R61): Unpacks a storage format from a using MX scales in b. -/
  | vunpk (core : CoreId) (f : VFields)
  /-- VRED (R38): Reduces one vector register into an X register by a fixed pairwise tree of sum, max or min. -/
  | vred (core : CoreId) (f : VFields)
  /-- VBCX (R61): Broadcasts the low bits of an X register to every lane. -/
  | vbcx (core : CoreId) (f : VFields)
  /-- VIMM (R61): Broadcasts the low bits of imm32 to every lane. -/
  | vimm (core : CoreId) (type : BitVec 3) (d : BitVec 5) (imm32 : BitVec 32)
  /-- VMOV (R61): Copies vector register a to d. -/
  | vmov (core : CoreId) (f : VFields)
  /-- MMA (R96): Streams A and B tiles from scratchpad through the array into an accumulator bank, recording guarded ranges. -/
  | mma (core : CoreId) (bank acc : Bool) (fmtA fmtB : BitVec 4) (k : BitVec 16) (agA agB : BitVec 4)
  /-- MATRIX_ENTER_ARRAY (R42): A queued matrix operation enters the array on the cycle after its predecessor retires its last k-step. -/
  | matrixEnterArray (core : CoreId)
  /-- MATRIX_COMPLETE (R43): An M operation becomes complete L_mm cycles after its last k-step, releasing its guarded ranges and bank. -/
  | matrixComplete (core : CoreId)
  /-- DRAIN (R44): Moves the 64 rows of an accumulator bank to V registers or scratchpad, converting or forming ledgers. -/
  | drain (core : CoreId) (bank : Bool) (mode : BitVec 3) (fmt : BitVec 4) (rnd : BitVec 2) (count : BitVec 6) (dest : BitVec 5) (window : BitVec 11)
  /-- DRAIN_ROW_VISIBLE (R44): A drained row becomes visible at its destination L_dr cycles after it is read. -/
  | drainRowVisible (core : CoreId)
  /-- LD (R64): Loads 512 bytes from scratchpad into a V register. -/
  | ld (core : CoreId) (v : BitVec 5) (g : BitVec 4) (off : BitVec 16)
  /-- LDX (R64): Loads 8 bytes from scratchpad into an X register. -/
  | ldx (core : CoreId) (x : BitVec 3) (g : BitVec 4) (off : BitVec 16)
  /-- DLD (R152): Issues an inbound depot descriptor walk from external memory to scratchpad after its checks. -/
  | dld (core : CoreId) (desc : BitVec 5) (useX : Bool) (x : BitVec 3)
  /-- ST (R64): Stores a V register to scratchpad. -/
  | st (core : CoreId) (v : BitVec 5) (g : BitVec 4) (off : BitVec 16)
  /-- STX (R64): Stores an X register to scratchpad. -/
  | stx (core : CoreId) (x : BitVec 3) (g : BitVec 4) (off : BitVec 16)
  /-- DST (R152): Issues an outbound depot descriptor walk or glaze request after its checks. -/
  | dst (core : CoreId) (desc : BitVec 5) (useX : Bool) (x : BitVec 3)
  /-- WWB (R65): Waits on a waybill bit, optionally clearing it on release. -/
  | wwb (core : CoreId) (clear : Bool) (bit : BitVec 10)
  /-- WDP (R154): Waits on a depot completion bit, optionally clearing it on release. -/
  | wdp (core : CoreId) (clear outbound : Bool) (desc : BitVec 5)
  /-- WAIT_RELEASE (R65): A Y wait releases once its waybill or completion bit is set, after the Table 2.10 latency. -/
  | waitRelease (core : CoreId)
  /-- BRANCH_RESOLVE (R73): At the resolution cycle the core commits or drops the shadow window's copies, stores, depot operations and held faults. -/
  | branchResolve (core : CoreId)
  /-- JOIN_ISSUE (R70): The join bundle issues in the cycle after the region counter reaches N, or an overrun is handled. -/
  | joinIssue (core : CoreId)
  /-- POST_BUNDLE (R76): The post-class bundle issues once all matrix work, drains, mirror writes and depot operations are done, and the core goes AT POST. -/
  | postBundle (core : CoreId)
  /-- STORE_VISIBLE (R50): A store becomes visible to later loads after its latency. -/
  | storeVisible (core : CoreId)
  /-- DEPOT_LINE_MOVE (R151): One line of a depot walk is moved between external memory and scratchpad, region rules judged line by line. -/
  | depotLineMove (core : CoreId) (desc : DescId)
  /-- DEPOT_COMPLETE (R153): A depot operation's completion bit sets when its last line is applied or its glaze request is accepted. -/
  | depotComplete (core : CoreId) (desc : DescId)
  /-- RE_READ_DONE (R307): The single re-read of an uncorrectable line completes and decides whether fired data are lost. -/
  | reReadDone (iface : IfaceId) (line : BitVec 48) (check : ReadCheck)
  /-- PATROL_SCRUB (R147): The patrol scrubber reads a line in unbooked share, rewriting corrected lines and handling uncorrectable ones. -/
  | patrolScrub (line : BitVec 48) (check : ReadCheck) (passSeconds : Option (BitVec 32))
  /-- REFRESH (R161): A memory controller refreshes once the postponement limit is reached. -/
  | refresh (iface : IfaceId)
  /-- SCRUB_DETECT (R127): The scratchpad scrubber reads a held or green front line in idle bank cycles and records any mismatch for repair. -/
  | scrubDetect (core : CoreId) (address : BitVec 24) (passCycles : Option (BitVec 32))
  /-- OUTER_PORT_GRANT (R112): A bank's outer port is granted to its highest-ranked waiting user; others wait in their buffers. -/
  | outerPortGrant (core : CoreId) (bank : Fin 24) (want : BitVec 4)
  /-- BANK_WRITE (R77): The steward writes a bundle or stage-table entry into a named instruction bank, returning a bank-write status. -/
  | bankWrite (core : CoreId) (bank : Bool) (target : BankTarget) (dataError : Bool)
  /-- DESCRIPTOR_WRITE (R149): The steward writes a depot descriptor into a named bank's table. -/
  | descriptorWrite (core : CoreId) (bank : Bool) (desc : Nat) (value : BitVec 256) (dataError : Bool)
  /-- GLAZE_REQUEST_ARRIVE (R174): A request reaches an engine from a depot, its inbox or the steward and waits to be accepted. -/
  | glazeRequestArrive (engine : EngineId) (source : GlazeSource) (request : Bytes)
  /-- GLAZE_ACCEPT (R174): An engine accepts the oldest waiting plan request when a tracker entry is free. -/
  | glazeAccept (engine : EngineId)
  /-- ATTENTION (R184): Op 0x01 walks the page table and computes partial attention triples per query row. -/
  | attention (engine : EngineRun)
  /-- GATHER (R188): Op 0x02 reads indexed rows and writes them dequantised into the reply. -/
  | gather (engine : EngineRun)
  /-- LEDGER_REDUCE (R190): Op 0x03 sums source vectors element by element as ledgers. -/
  | ledgerReduce (engine : EngineRun)
  /-- PAGE_COPY (R192): Op 0x04 copies listed page pairs, locally or to a remote engine, in any order. -/
  | pageCopy (engine : EngineRun)
  /-- COMPACTION (R192): Op 0x05 copies listed page pairs one after another in list order. -/
  | compaction (engine : EngineRun)
  /-- STAGE_START (R239): At its route time a stage starts: core state resets, the entry bundle is fetched and intake and tables apply. -/
  | stageStart
  /-- REST_START (R240): At the rest's route time every core not AT POST stops issuing and the post margin is recorded. -/
  | restStart
  /-- VOTE_FORM (R297): 64 ticks into the rest the device forms its vote, decides strikes and latches post-timed values, and sends phase 0. -/
  | voteForm
  /-- POST_VOTE (R298): A received kind-0x01 vote is checked and combined; once a phase is complete the next is sent, and after the last the verdict is reached. -/
  | postVote (link : LinkId) (source : BitVec 20) (payload : Bytes)
  /-- VOTE_DEADLINE (R299): A peer whose phase vote has not arrived by d_k counts as foul with causes absent and stop, and the next phase is sent. -/
  | voteDeadline
  /-- RELOAD_DONE (R314): The steward finishes reloading moved, rotated or reset cores and they become IDLE. -/
  | reloadDone
  /-- ESCALATION_RESEND (R322): Unacknowledged records are delivered again every resend interval. -/
  | escalationResend
  /-- MESH_MOVE (R285): A mesh stop entry moves its flits from in port to out port from its booked cycle, setting a waybill bit on delivery. -/
  | meshMove (row : RowId) (stop : Fin 13) (entry : MeshHop)
  /-- DIE_TO_DIE_MOVE (R286): A die-to-die entry sends its units in booked intervals, delivered 48 ticks later at the far side. -/
  | dieToDieMove (side : Fin 6) (entry : DieHop)
  /-- SLOT_START (R254): At each bale slot a link end sends the booked plan bale or else a replay, detour, dynamic or idle bale. -/
  | slotStart (link : LinkId)
  /-- BALE_RECEIVE (R251): A link end decodes a received bale as good or bad, processes ack and nak, and dispatches it by class. -/
  | baleReceive (link : LinkId) (seq : BitVec 12) (bale : BitVec 1280) (fec : FecReading) (arrival : BitVec 68)
  /-- BEACON_RECEIVE (R232): A beacon is timestamped, its offset recorded, and a parent beacon updates the discipline loop. -/
  | beaconReceive (link : LinkId) (beacon : BitVec 96) (arrival : BitVec 68)
  /-- ROUTE_ADJUST (R232): When the rate accumulator reaches one tick the route counter inserts or skips a tick on all dies at an announced value. -/
  | routeAdjust
  /-- PARENT_BEACON_TIMEOUT (R234): Three beacon intervals without a parent beacon move a LOCKED device to HOLDOVER. -/
  | parentBeaconTimeout
  /-- HOLDOVER_EXPIRY (R234): 128 intervals in HOLDOVER move the device to UNFIT. -/
  | holdoverExpiry
  /-- NAK_RESEND (R256): If no replay has arrived 2 ceil(lambda) + 352 ticks after a nak, the receiver names the number once more. -/
  | nakResend (link : LinkId)
  /-- REPLAY_OVERDUE (R260): A replay not sent by its deadline is counted and declares the link down with cause 2. -/
  | replayOverdue (link : LinkId)
  /-- ACK_TIMEOUT (R261): No advance of the cumulative acknowledgement for 4,096 ticks while copies are held declares the link down with cause 4. -/
  | ackTimeout (link : LinkId)
  /-- BAD_BALE_WINDOW_END (R261): A window of 2^24 slots ends and the bad-bale count restarts. -/
  | badBaleWindowEnd (link : LinkId)
  /-- LOSS_OF_SIGNAL (R261): Loss of signal or codeword lock on both lanes declares the link down with cause 3. -/
  | lossOfSignal (link : LinkId)
  /-- HOLD_END (R264): At the hold limit the dynamic bales still held for a down link are flushed with synthetic completions. -/
  | holdEnd (link : LinkId)
  /-- LANE_FAILED (R270): A lane that loses lock or errs while the other holds is failed and NARROW is sent. -/
  | laneFailed (link : LinkId) (lane : Bool)
  /-- HELLO (R266): HELLO exchanges coordinates, link numbers and versions in training, or restarts sequence numbering. -/
  | hello (link : LinkId) (param : BitVec 46)
  /-- RETRAIN (R269): RETRAIN starts a training attempt at the far end, with the lower coordinate leading on a collision. -/
  | retrain (link : LinkId) (coordinate : BitVec 20)
  /-- DOWN (R262): A received DOWN declares the link down with cause 5. -/
  | down (link : LinkId) (cause : BitVec 6)
  /-- NARROW (R270): NARROW puts both ends into one-lane operation on the remaining lane. -/
  | narrow (link : LinkId) (lane : Bool)
  /-- ECHO (R265): An ECHO requests a latency answer during training. -/
  | echo (link : LinkId) (arrival : BitVec 68)
  /-- ECHO_REPLY (R265): An ECHO REPLY gives its delay so the end computes lambda as half the round trip. -/
  | echoReply (link : LinkId) (delay : BitVec 46) (arrival : BitVec 68)
  /-- READY (R265): READY exchanged ends a training attempt and the link enters UP. -/
  | ready (link : LinkId)
  /-- TRAINING_ATTEMPT (R268): The steward starts a training attempt on entry to HELD or 100 ms after a failed attempt. -/
  | trainingAttempt (link : LinkId)
  /-- PMD_TRAINING_DONE (R265): PMD start-up training and codeword lock complete on both lanes of a link. -/
  | pmdTrainingDone (link : LinkId) (lanes : BitVec 5)
  /-- TRAINING_TIMEOUT (R265): A training step's time limit expires, failing the attempt and retiring the link on a third failure in 1 s. -/
  | trainingTimeout (link : LinkId)
  /-- ACKNOWLEDGEMENT_ONLY (R294): A kind-0x02 bale carries only the end-to-end cumulative acknowledgement. -/
  | acknowledgementOnly (link : LinkId) (source : BitVec 20) (echo : Bool) (header : BitVec 64)
  /-- ACK_ONLY_TIMER (R294): A destination with nothing to send for 256 ticks sends a kind-0x02 acknowledgement. -/
  | ackOnlyTimer (source : BitVec 20)
  /-- COMPLETION (R264): A kind-0x06 completion, including a synthetic one, reaches its requester. -/
  | completion (source : BitVec 20) (tag : BitVec 24) (status : Byte)
  /-- KV_PAGE_COPY_BALE (R192): A remote page-copy bale is written by the destination engine into its local window. -/
  | kvPageCopyBale (engine : EngineId) (source : BitVec 20) (tag : BitVec 24) (address : BitVec 48) (payload : BitVec 1024)
  /-- HOST_TRAFFIC (R346): A fabric-copy bale is applied at the destination within its allowed windows or refused. -/
  | hostTraffic (source : BitVec 20) (tag : BitVec 24) (address : BitVec 64) (payload : BitVec 1024)
  /-- OLD_EPOCH_EXPIRE (R292): 131,072 ticks after a switch the old routing table is dropped with its bales, each getting status 0x14. -/
  | oldEpochExpire
  /-- SUBSTITUTION (R276): Writing the substitution list gives a lost logical address to a spare and rebuilds relay entries. -/
  | substitution (rq : Requester) (addresses : Bytes)
  /-- PREPARE (R349): A device checks a PREPARE, forwards it, loads its leg, builds routes, sets its step and will ACK. -/
  | prepare (source : BitVec 20) (msg : StartMsg)
  /-- ACK (R325): A child's ACK is merged, and once all are in the device answers its parent or the starter sends GO or ABORT. -/
  | ack (source : BitVec 20) (msg : StartMsg)
  /-- GO (R350): A GO arms the named first stage at T_s with epoch-0 notices. -/
  | go (source : BitVec 20) (msg : StartMsg)
  /-- ABORT (R326): An ABORT discards the prepared start and returns the device to READY. -/
  | abort (source : BitVec 20) (msg : StartMsg)
  /-- ACK_DEADLINE (R325): A child that has not answered by the deadline is absent and a failed ACK names it. -/
  | ackDeadline
  /-- PREPARE_DISCARD (R326): A prepared device receiving neither GO nor ABORT within 60 ms discards the prepare. -/
  | prepareDiscard
  /-- START_COMMAND (R348): Writing 1 to OD 5870.06 makes the starter begin the start rounds. -/
  | startCommand (rq : Requester) (value : Byte)
  /-- STOP_REQUEST (R352): Writing 1 to OD 5800.05 makes the device set stop in its next vote. -/
  | stopRequest (rq : Requester) (value : Byte)
  /-- INTAKE_POINT (R340): At offset tau the intake unit takes posted headers, or replays the record, and delivers the intake list. -/
  | intakePoint (point : Fin 16)
  /-- LOG_COPY_DONE (R353): A log copy completes and releases of its slots waiting on it proceed in sequence order. -/
  | logCopyDone (ws : WsId)
  /-- HOST_WRITE (R335): A host CXL.mem or BAR4 write is applied to its device-side target or dropped. -/
  | hostWrite (window : HostWindow) (offset : Nat) (payload : Bytes)
  /-- HOST_READ (R146): A host read returns data, poison, all ones or a completer abort. -/
  | hostRead (window : HostWindow) (offset : Nat) (length : Nat)
  /-- HOST_PORT_RESET (R333): A Function Level Reset, hot reset or host link loss resets the host port and OD 5808 objects only. -/
  | hostPortReset (kind : HostReset)
  /-- PERST (R451): PERST_N low resets the host port; when high the port trains. -/
  | perst (level : Bool)
  /-- INTERRUPT_COALESCE_END (R345): At the end of 1 ms, events of a source after its message raise one more message. -/
  | interruptCoalesceEnd (source : Fin 54)
  /-- FABRIC_COPY (R346): Writing 1 to OD 5880.05 copies bytes from local LPDDR5X to another device as dynamic bales. -/
  | fabricCopy (rq : Requester) (value : Byte)
  /-- LOAD (R347): Load command 1 checks a patched leg image and installs its homes in a slot. -/
  | load (rq : Requester)
  /-- UNLOAD (R347): Load command 2 unloads a slot that is not running and not referenced. -/
  | unload (rq : Requester)
  /-- FRAME_RECEIVE (R365): A ring port consumes, forwards or drops a received frame. -/
  | frameReceive (port : Bool) (frame : Bytes) (fcsGood : Bool)
  /-- READ (R367): GDP op 0x01 returns an object's value or length. -/
  | read (rq : Requester) (transaction : BitVec 32) (index : BitVec 16) (sub : BitVec 8)
  /-- WRITE (R359): GDP op 0x03 writes an object with no row of its own, checked in the order of R359 and journaled. -/
  | write (rq : Requester) (transaction : BitVec 32) (index : BitVec 16) (sub : BitVec 8) (value : Bytes)
  /-- SEGMENT_READ (R368): GDP op 0x05 returns one segment of an STR or DOMAIN snapshot. -/
  | segmentRead (rq : Requester) (transaction : BitVec 32) (index : BitVec 16) (sub : BitVec 8) (segment : BitVec 16)
  /-- SEGMENT_WRITE (R368): GDP op 0x07 writes one segment, the whole object being written on the last. -/
  | segmentWrite (rq : Requester) (transaction : BitVec 32) (index : BitVec 16) (sub : BitVec 8) (segment : BitVec 16) (last : Bool) (value : Bytes)
  /-- DISCOVER (R371): GDP op 0x0A returns the 24-byte identity reply. -/
  | discover (rq : Requester) (transaction : BitVec 32)
  /-- SEGMENT_TIMEOUT (R368): A gap of over 100 ms ends a segmented write with 0x07, or expires a read snapshot. -/
  | segmentTimeout (rq : Requester) (transaction : BitVec 32)
  /-- TUNNEL_TIMEOUT (R370): No kind-0x03 reply within 10 ms makes the gateway return status 0x0B. -/
  | tunnelTimeout (transaction : BitVec 32)
  /-- DICTIONARY_FRAME (R375): A kind-0x03 bale carrying a GDP PDU is served by the target's steward and answered, or its reply returned to the gateway. -/
  | dictionaryFrame (source : BitVec 20) (pdu : Bytes)
  /-- BAR2_ACCESS (R372): A host BAR2 write reaches an object and its status is placed in OD 1170.04. -/
  | bar2Access (requester : BitVec 16) (offset : Nat) (length : Nat) (written : Option Bytes)
  /-- WINDOW_READ (R374): Window command 1 copies an object into the BAR2 transfer window. -/
  | windowRead (requester : BitVec 16)
  /-- WINDOW_WRITE (R374): Window command 2 writes the window's bytes to an object as one write. -/
  | windowWrite (requester : BitVec 16)
  /-- WINDOW_TUNNEL (R374): Window command 3 sends a GDP request over the fabric and places the reply in the window. -/
  | windowTunnel (requester : BitVec 16)
  /-- BANK_SWITCH_REQUEST (R78): Writing OD 3nnn.04 stores a post-timed bank-switch request. -/
  | bankSwitchRequest (rq : Requester) (core : CoreId) (value : Byte)
  /-- ARM (R214): Writing OD 2020.05 arms a weight switch at the next fair post. -/
  | arm (rq : Requester) (value : Byte)
  /-- LAND_REQUEST (R207): Writing OD 2028.05 requests a landing at the next fair post, replacing a pending one. -/
  | landRequest (rq : Requester) (value : Byte)
  /-- BALANCING_ENABLE (R209): Writing OD 201s.07 sets balancing post-timed, refused with 0x0A on a leg not balance-safe. -/
  | balancingEnable (rq : Requester) (slot : SlotId) (value : Byte)
  /-- TARGET_STEP (R241): Writing OD 2410.01 prepares a step change that applies at action 5 of a later post. -/
  | targetStep (rq : Requester) (value : Byte)
  /-- RETRAIN_REQUEST (R268): Writing OD 38ll.20 starts a retrain attempt at a fair post. -/
  | retrainRequest (rq : Requester) (link : LinkId) (value : Byte)
  /-- RETIRE_REQUEST (R268): Writing OD 38ll.21 retires a link at a fair post. -/
  | retireRequest (rq : Requester) (link : LinkId) (value : Byte)
  /-- ROTATION_PLAN_WRITE (R211): Writing a rotation-plan entry is refused if valid with quantum 0 or naming an empty slot. -/
  | rotationPlanWrite (rq : Requester) (entry : Fin 8) (value : BitVec 32)
  /-- ACKNOWLEDGE (R322): Writing a sequence number to OD 4400.05 removes that escalation record and all earlier ones. -/
  | acknowledge (rq : Requester) (value : BitVec 16)
  /-- SHAPE_WRITE (R458): Writing the domain shape objects enables link training, and a change after step 6 retrains every link. -/
  | shapeWrite (rq : Requester) (index : BitVec 16) (sub : BitVec 8) (value : Bytes)
  /-- ATTESTATION_NONCE (R384): Writing a 32-byte nonce starts an attestation over a snapshot taken at the write. -/
  | attestationNonce (rq : Requester) (nonce : Bytes)
  /-- ATTESTATION_DONE (R384): The signed report is placed in OD 5010.02 and the state set to done. -/
  | attestationDone
  /-- TRUSTED_PUBLISHER_WRITE (R387): Writing a trusted-publisher entry is refused for a wrong length or a duplicate key. -/
  | trustedPublisherWrite (rq : Requester) (entry : Fin 16) (key : Bytes)
  /-- CARGO_OPEN (R388): Cargo command 1 checks a staged cargo and opens and seals a free entry. -/
  | cargoOpen (rq : Requester)
  /-- CARGO_PAGES_COPY (R390): Cargo command 2 copies pages to their destinations, hashing and matching them. -/
  | cargoPagesCopy (rq : Requester)
  /-- CARGO_PAGES_IN_PLACE (R390): Cargo command 3 hashes pages at their destinations and matches them. -/
  | cargoPagesInPlace (rq : Requester)
  /-- CARGO_RELEASE (R393): Cargo command 5 frees an unreferenced entry and unseals it. -/
  | cargoRelease (rq : Requester)
  /-- CARGO_COMMAND_END (R388): A running cargo command ends and sets its final status and detail. -/
  | cargoCommandEnd
  /-- CHUNK (R398): Writing OD 5200.11 programs a chunk into the inactive slot at the chunk offset. -/
  | chunk (rq : Requester) (payload : Bytes)
  /-- FIRMWARE_PROGRAM (R398): Firmware command 1 programs the inactive slot from device memory. -/
  | firmwareProgram (rq : Requester)
  /-- FIRMWARE_VERIFY (R398): Firmware command 2 verifies the inactive slot under verify(). -/
  | firmwareVerify (rq : Requester)
  /-- SET_TRIAL (R398): Firmware command 3 sets the trial flag after a successful verify. -/
  | setTrial (rq : Requester)
  /-- COMMIT (R398): Firmware command 4 makes the active slot preferred. -/
  | commit (rq : Requester)
  /-- RAISE_FUSE_FLOOR (R398): Firmware command 5 raises the security-version fuse floor, refused during a trial. -/
  | raiseFuseFloor (rq : Requester)
  /-- ERASE (R398): Firmware command 6 erases the inactive slot. -/
  | erase (rq : Requester)
  /-- PART_RESET (R450): PWRGD_IN or RESET_N low for 10 us or more holds the part in reset. -/
  | partReset (pwrgdFell : Bool)
  /-- RESET_END (R454): Reset ends, straps are sampled, PLLs lock, the route counter starts and the boot ROM runs. -/
  | resetEnd (coord : BitVec 20) (recovery testEn : Bool)
  /-- CALIBRATION_STEP_DONE (R455): A start-up step of CALIBRATING finishes and dependent steps begin or READY is entered. -/
  | calibrationStepDone (step : CalStep) (failed : List Nat)
  /-- PMBUS_POLL (R405): Every millisecond the steward polls each present converter and detects converter faults. -/
  | pmbusPoll (converter : ConvId) (reading : PollReading)
  /-- PMBUS_ALERT (R447): A converter alert starts an immediate poll. -/
  | pmbusAlert (bus : Bool) (readings : List PollReading)
  /-- ROOT_PLL_LOCK_LOSS (R464): A die's root PLL loses lock, memory enters self-refresh and the die's logic is reset. -/
  | rootPllLockLoss (die : DieId)
  /-- DIE_READY (R464): After relock the die's crossings and die-to-die are restored and it is ready. -/
  | dieReady (die : DieReady)
  /-- STEWARD_WATCHDOG (R320): Watchdog expiry restarts the steward, enters FAULTED and escalates 0x15. -/
  | stewardWatchdog (restarts : Bool)
  /-- THERMAL_TRIP (R243): A row region's trip drops its clock one step within 32 ticks. -/
  | thermalTrip (row : RowId)
  /-- THERMAL_HOLD (R413): A hold threshold or second trip stops every row clock until the rest. -/
  | thermalHold
  /-- THERMAL_SHUTDOWN (R414): The shutdown threshold asserts THERMTRIP_N. -/
  | thermalShutdown
  /-- SENSOR_SAMPLE (R412): Every 1,024 ticks the steward reads each region's sensors. -/
  | sensorSample (region : RegionId) (sensor0 sensor1 : Int)
  /-- POWER_SAMPLE (R411): Every 1,024 ticks input power is sampled, and a 1 ms average over the peak limit trips every row. -/
  | powerSample (milliwatts : Nat)
  /-- THROTTLE_RESTORE (R484): With no itinerary running, 100 ms below restore threshold lowers the throttle step by one. -/
  | throttleRestore
  /-- MONITOR_SAMPLE (R417): Every 1,024 ticks a replica-path monitor samples its path delay. -/
  | monitorSample (region : RegionId) (monitor : Fin 6) (taps : BitVec 16)
  /-- DIVIDER_SWITCH (R242): 256 ticks before the next stage a changing row switches its divider and crossings re-select. -/
  | dividerSwitch
  /-- REGULATOR_SETTLED (R406): A regulator reaches its target, completing a ramp so a faster step can apply. -/
  | regulatorSettled (region : RegionId)
  /-- REGULATOR_FAULT (R409): A regulator over-current or failure to settle within 50 us is a fault. -/
  | regulatorFault (region : RegionId)
  /-- COUNTER_OVERFLOW (R430): A counter passing 2^48 - 1 reloads, sets its flag, and raises MSI-X or a sample. -/
  | counterOverflow (counter : Fin 2528)
  /-- OVERFLOW_INTERRUPT_TIMER (R430): At the end of 65,536 ticks, overflows since the last message raise one message. -/
  | overflowInterruptTimer
  /-- COUNTER_CONFIGURATION_WRITE (R425): A configuration word takes effect within 4 cycles or is refused. -/
  | counterConfigurationWrite (rq : Requester) (counter : Fin 2528) (value : BitVec 32)
  /-- SAMPLE_ACKNOWLEDGE (R431): Writing OD 4800.09 removes that sample and every earlier one. -/
  | sampleAcknowledge (rq : Requester) (value : BitVec 32)
  /-- TALLY_ARM (R436): Tally command 1 arms a tally, or is refused. -/
  | tallyArm (rq : Requester)
  /-- TALLY_DISARM (R436): Tally command 2 disarms the tally. -/
  | tallyDisarm (rq : Requester)
  /-- TALLY_TRIGGER (R437): At trigger tick T every block latches its snapshot into the tally buffer. -/
  | tallyTrigger
  /-- LOAD_DONE (R477): The loader finishes installing a leg's homes at steward-copy rank, sets the load status and detail, and raises the load-or-start interrupt. -/
  | loadDone
  /-- FIRMWARE_COMMAND_END (R398): A running firmware command (program, verify, erase and the like) finishes, reads back flash and sets its status in OD 5200.15. -/
  | firmwareCommandEnd
  /-- HOST_PORT_TRAINED (R331): The host port finishes link training as CXL or PCIe, setting attach mode, width and rate. -/
  | hostPortTrained (cxl : Bool) (width rate : BitVec 8)
  /-- RING_PORT_LINK_CHANGE (R364): A management ring port gains or loses its 1000BASE-X or SGMII link, changing OD 1100.03 or 1100.04 and whether frames can be forwarded through it. -/
  | ringPortLinkChange (port : Bool) (mode : Fin 3)
  deriving DecidableEq, Repr

end Sys2Proof
end

