-- ==== Sys2Proof/Decode.lean ====
section
/-! DEFINITION. Commands as words of the opcode table. The table of this hardware gives no row any bits
(98 R480 and the table's own note), so no word spells a command. -/

namespace Sys2Proof

/-- The command that a word of the opcode table spells: none, because no row has bits. -/
def decodeTableWord (nbits w : Nat) : Option Instr :=
  match nbits, w with
  | _, _ => none

end Sys2Proof
end

