-- ==== Sys2Proof/Config.lean ====
section
/-! DEFINITION. What the spec refers to and does not give: the FIPS 205 signature scheme (15). The
constants have no body, so nothing can be proved of their values (log entries 4, 12, 15, 18, 31 and 33). -/

namespace Sys2Proof.Config

/-- The SLH-DSA parameter sets the spec names (15 R382, R383). -/
inductive SlhSet where
  | sha2_128s
  | sha2_192s
  deriving DecidableEq, Repr

/-- Pure SLH-DSA verification with an empty context string: does `signature` over `message` verify
under `publicKey`? DESIGN CHOICE (log entry 12): FIPS 205 is outside the spec, so its answer is free. -/
opaque slhDsaVerify (set : SlhSet) (publicKey message signature : Bytes) : Bool

/-- Pure SLH-DSA-SHA2-128s signature by the device key of the fused seeds (R382, R384), as a function
of the seeds and the message. DESIGN CHOICE (log entry 12): free. -/
opaque slhDsaSign (seeds message : Bytes) : Bytes

/-- PK.root as the steward recomputes it from the fused seeds at each boot (R382). DESIGN CHOICE
(log entry 12): free. -/
opaque slhDsaRoot (seeds : Bytes) : Bytes

/-- Transaction numbers of the frames the device sends on its own (Events, R369). The spec gives none;
free, applied to the state's counter of free values (log entry 4). -/
opaque eventTransaction : Nat → BitVec 32

/-- What a V register holds after a VPACK into an MX format that names it for the elements and for the
scales at once, from the two contents (Table 3.7). The spec gives no order of the two writes; free (log entry 15). -/
opaque packBoth (elements scales : BitVec 4096) : BitVec 4096

/-- The bytes of register b above the scales after a VPACK into an MX format, from what b held. Table 3.7 has the scales
from byte 0 and does not say what becomes of the bytes above them; free (log entry 15). -/
opaque packUpper (old : BitVec 4096) : BitVec 4096

/-- The relay allowance A that Pripol assigns to the hop after a link entry (R475), from the leg hash, the link and
the entry. The spec has the loader check with it and gives the image no place for it; free (log entry 31). -/
opaque relayAllowance (legHash : Bytes) (link entry : Nat) : Nat

/-- Sum of the relay allowances that Pripol assigned to the other hops of the path that ends at a receive entry (R475; no field of an
image carries one; log entry 60). -/
opaque otherAllowances (legHash : Bytes) (link entry : Nat) : Nat

/-- The FIFO depth, from 2 to 5, that calibration `n` of a die gives crossing `x` of it at a step (R223), less 2. The spec leaves it
to the measured phase; free (log entry 59). -/
opaque crossingDepth (n x step : Nat) : BitVec 2

/-- λ_cap at a device that has no leg image to give it: a spare that relays (R277). The spec does not say where such a device has
it from; free (log entry 28). -/
opaque relayCap : BitVec 10

/-- The number of refreshes that the JEDEC standard of an interface's device lets its controller postpone (R161), which the spec does
not give; free (log entry 57). -/
opaque refreshLimit (iface : Nat) : Nat

/-- What distinguishes the stored check bits of a scratchpad word that is in error from those of its data (R124); free (log
entry 19). -/
opaque scratchSyndrome (word : Nat) : BitVec 8

/-- Byte `i` of the stored codeword `half` of an external line that is uncorrectable (R145): the spec gives its syndrome only; free
(log entry 19). -/
opaque storedByte (line half i : Nat) : Byte

/-- What an X register and a V register hold after two slots of one bundle have both written
them. The spec gives no order; free, applied to the state's counter of free values (log entry 18). -/
opaque freeX : Nat → BitVec 64
opaque freeV : Nat → BitVec 4096

/-- The input current in mA that a region's regulator shows after the n-th power sample (R411, OD 28rr.03): the command gives the
device's input power alone; free (log entry 60). -/
opaque inputCurrent (region n : Nat) : BitVec 32

/-- A byte of a host read of the counter window whose length or alignment R433 does not allow: the spec gives no data for
it; free, applied to the state's counter of free values (log entry 33). -/
opaque windowByte : Nat → Byte

end Sys2Proof.Config
end

