-- ==== Sys2Proof/Machine/Slots.lean ====
section
/-! DEFINITION. The slot operations of a bundle as data (Tables 3.4 to 3.9, R65). A command of an S, V,
M, L, T or Y row issues one of them; BUNDLE_ISSUE issues those its bundle holds. -/

namespace Sys2Proof.Machine

/-- S-slot operations (Table 3.5). -/
inductive SOp where
  | add (d a b : BitVec 3)
  | sub (d a b : BitVec 3)
  | and (d a b : BitVec 3)
  | or (d a b : BitVec 3)
  | xor (d a b : BitVec 3)
  | shl (d a b : BitVec 3)
  | shr (d a b : BitVec 3)
  | sar (d a b : BitVec 3)
  | mul (d a b : BitVec 3)
  | mov (d a b : BitVec 3)
  | addi (d a : BitVec 3) (imm24 : BitVec 24)
  | movi (d a : BitVec 3) (imm24 : BitVec 24)
  | shli (d a : BitVec 3) (imm24 : BitVec 24)
  | cmp (k : BitVec 2) (rel : BitVec 3) (type mode : BitVec 2) (a : BitVec 3) (low : BitVec 16)
  | br (k : BitVec 2) (sense predict : Bool) (n t j : BitVec 10)
  | loop (level : BitVec 2) (trips : BitVec 24)
  | agb (g : BitVec 4) (a : BitVec 3) (imm24 : BitVec 24) (useX : Bool)
  | ags (g : BitVec 4) (level : BitVec 2) (stride : BitVec 24)
  | csrc (c : BitVec 2) (source : BitVec 3)
  | cadd (c : BitVec 2) (imm16 : BitVec 16)
  | crd (d : BitVec 3) (c : BitVec 2)
  | stg (d sel : BitVec 3)
  deriving DecidableEq, Repr

/-- V-slot opcodes (Table 3.7), VIMM apart. -/
inductive VCode where
  | vadd | vsub | vmul | vfma | vmin | vmax | vcmp | vsel | vand | vor | vxor | vshl | vshr | vsar
  | vexp2 | vlog2 | vrcp | vrsq | vcvt | vpack | vunpk | vred | vbcx | vmov
  deriving DecidableEq, Repr

/-- V-slot operations. -/
inductive VOp where
  | lane (op : VCode) (f : VFields)
  | imm (type : BitVec 3) (d : BitVec 5) (imm32 : BitVec 32)
  deriving DecidableEq, Repr

/-- M-slot operations (Table 3.8). -/
inductive MOp where
  | mma (bank acc : Bool) (fmtA fmtB : BitVec 4) (k : BitVec 16) (agA agB : BitVec 4)
  | drain (bank : Bool) (mode : BitVec 3) (fmt : BitVec 4) (rnd : BitVec 2) (count : BitVec 6)
      (dest : BitVec 5) (window : BitVec 11)
  deriving DecidableEq, Repr

/-- L-slot operations (Table 3.9). -/
inductive LOp where
  | ld (v : BitVec 5) (g : BitVec 4) (off : BitVec 16)
  | ldx (x : BitVec 3) (g : BitVec 4) (off : BitVec 16)
  | dld (desc : BitVec 5) (useX : Bool) (x : BitVec 3)
  deriving DecidableEq, Repr

/-- T-slot operations (Table 3.9). -/
inductive TOp where
  | st (v : BitVec 5) (g : BitVec 4) (off : BitVec 16)
  | stx (x : BitVec 3) (g : BitVec 4) (off : BitVec 16)
  | dst (desc : BitVec 5) (useX : Bool) (x : BitVec 3)
  deriving DecidableEq, Repr

/-- Y-slot operations (R65). -/
inductive YOp where
  | wwb (clear : Bool) (bit : BitVec 10)
  | wdp (clear outbound : Bool) (desc : BitVec 5)
  deriving DecidableEq, Repr

/-- One operation of one slot. -/
inductive SlotOp where
  | s (op : SOp)
  | v (op : VOp)
  | m (op : MOp)
  | l (op : LOp)
  | t (op : TOp)
  | y (op : YOp)
  deriving DecidableEq, Repr

/-- Slot numbers of the halt record (Table 3.13). -/
def SlotOp.number : SlotOp → Nat
  | .s _ => 1
  | .v _ => 2
  | .m _ => 3
  | .l _ => 4
  | .t _ => 5
  | .y _ => 6

end Sys2Proof.Machine
end

