-- ==== Sys2Proof/Machine/State.lean ====
section
/-! DEFINITION. The state of one G9 device, as plain data, and the state right after a reset of the
part. Scalar dictionary objects that no other field holds live in `State.od`, keyed by
index x 256 + subindex; STR and DOMAIN objects in `State.odb`. -/

namespace Sys2Proof.Machine

/-- Physical core states (Table 2.4). -/
inductive CoreState where
  | off | idle | running | atPost | halted | standby | retired
  deriving DecidableEq, Repr

/-- One loop level (R66): trips remaining (0 = inactive), index, start address of the body. -/
structure LoopLevel where
  trips : BitVec 24
  idx : BitVec 24
  start : Nat
  deriving DecidableEq, Repr

/-- One address generator (Table 2.6, R67). -/
structure AddrGen where
  base : BitVec 24
  stride0 : BitVec 24
  stride1 : BitVec 24
  stride2 : BitVec 24
  stride3 : BitVec 24
  deriving DecidableEq, Repr

/-- One counter C (R35) with its source (Table 3.4, CS). -/
structure Counter where
  value : BitVec 32
  source : BitVec 3
  deriving DecidableEq, Repr

/-- The registers of which the shadow window keeps copies (R72), and what goes back with them when a
window is dropped. -/
structure Regs where
  x : Table (BitVec 64)
  v : Table (BitVec 4096)
  k : Table Bool
  c : Table Counter
  ag : Table AddrGen
  /-- Scoreboard (R50): cycle from which a result is readable; X i at i, V i at 8 + i, K i at 40 + i. -/
  ready : Table Nat
  /-- Cycle from which the CMP that waits for its operand has read it (R69). -/
  cmpWait : Nat
  /-- First cycle in which the vector unit is free of an FP64 operation (R37). -/
  vFree : Nat
  /-- Ordinal of the next stochastic-rounding operation (R94). -/
  stoch : BitVec 32
  /-- Registers whose check bits mismatch (R82, code 0xA5), numbered as in `ready`. -/
  errors : List Nat
  deriving DecidableEq, Repr

/-- An M operation from its issue until it is complete (R42, R43, R46). -/
structure MatrixOp where
  bank : Bool
  acc : Bool
  fmtA : BitVec 4
  fmtB : BitVec 4
  k : Nat
  a : Nat
  b : Nat
  scaleA : Nat
  scaleB : Nat
  /-- Address of its bundle, for the halt record. -/
  address : Nat
  /-- The cycle in which it entered the array. -/
  enter : Option Nat
  deriving DecidableEq, Repr

/-- A drain in flight (R44). `words` is the bank's contents, fixed while the drain runs (R43), and `isInt` the kind of
the bank's last M operation when it issued (R91, R101). -/
structure DrainOp where
  bank : Bool
  mode : Nat
  fmt : BitVec 4
  stochastic : Bool
  index : BitVec 32
  count : Nat
  dest : Nat
  window : Int
  issued : Nat
  row : Nat
  words : Table (BitVec 32)
  isInt : Bool
  /-- Ledger rows read and not yet visible: the row and its bytes; none where its read failed (R104, R125). -/
  ledgers : List (Nat × Option Bytes)
  address : Nat
  deriving DecidableEq, Repr

/-- What a halt records (Table 3.13). -/
structure HaltInfo where
  code : Nat
  slot : Nat
  bank : Bool
  address : Nat
  shadow : Bool
  cycle : Nat
  deriving DecidableEq, Repr

/-- A store that is not yet visible (R50). -/
structure PendingStore where
  address : Nat
  length : Nat
  visible : Nat
  deriving DecidableEq, Repr

/-- An entry of the store hold (R72). -/
inductive HoldEntry where
  | store (address : Nat) (bytes : Bytes) (bundle : Nat)
  | dst (desc : Nat) (useX : Bool) (offset : BitVec 64)
  deriving DecidableEq, Repr

/-- A depot operation in flight (R151, R153). -/
structure DepotOp where
  desc : Nat
  descriptor : BitVec 256
  offset : BitVec 64
  /-- Lines of the walk moved so far. -/
  next : Nat
  /-- A failed read or a region breach ended the walk early (R125, R152). -/
  stopped : Bool
  /-- Issued in a shadow window that is not yet resolved (R72). -/
  shadow : Bool
  /-- Lines kept in the depot: a shadow DLD's data, or the request a kind-1 walk has read. -/
  kept : List (Nat × Bytes)
  /-- Kind 1: the engine has accepted the request (R153). -/
  accepted : Bool
  deriving DecidableEq, Repr

/-- Why the core's next issue waits (Table 2.11, Table 17.9), and which operation waits: none = the
bundle at the bundle address, some = a single slot operation. -/
structure Stall where
  cause : Nat
  resource : Nat
  op : Option SlotOp
  deriving DecidableEq, Repr

/-- An open branch region (R68 to R74). -/
structure BranchRegion where
  branch : Nat
  n : Nat
  t : Nat
  j : Nat
  k : Nat
  sense : Bool
  predict : Bool
  issued : Nat
  /-- Resolution cycle r (R69). -/
  resolution : Nat
  resolved : Bool
  /-- The path that issues now is the taken one. -/
  taken : Bool
  /-- Region counter (R70). -/
  counter : Nat
  /-- The last bundle of the path that issues has issued. -/
  pathDone : Bool
  /-- No bundle issues before this cycle (R73). -/
  discardUntil : Nat
  shadowBundles : Nat
  saved : Regs
  hold : List HoldEntry
  clears : List (Bool × Nat)
  held : Option HaltInfo
  /-- Completion, in-flight and issued bits before the window (R73). -/
  savedDone : BitVec 56
  savedFlight : BitVec 56
  savedIssued : BitVec 56
  /-- Stores not yet visible when the branch issued. -/
  savedStores : List PendingStore
  /-- Loop levels active when the branch issued, bit i for level i (R68). -/
  levels : Nat
  /-- Non-empty slots of the window's bundles, per slot, for the slot classes (R428). -/
  slots : Table Nat
  deriving DecidableEq, Repr

/-- One physical core (02, 03, 05). -/
structure Core where
  state : CoreState
  regs : Regs
  loops : Table LoopLevel
  /-- A0 at 0 to 8191, A1 at 8192 to 16383, row x 128 + column (R480). -/
  acc : Table (BitVec 32)
  /-- Bit b: the last M operation into bank b was an integer one (R101). -/
  accInt : BitVec 2
  /-- Bit b: a word of bank b has a check mismatch (R82, code 0xA5). -/
  accErrors : BitVec 2
  mops : List MatrixOp
  drains : List DrainOp
  stores : List PendingStore
  region : Option BranchRegion
  pc : Nat
  /-- Active bank (OD 3nnn.03). -/
  bank : Bool
  /-- False while the core is being loaded and has no active bank (R77). -/
  hasBank : Bool
  /-- Core cycle of the stage. -/
  cycle : Nat
  /-- Last cycle in which a bundle issued, plus one. -/
  issued : Nat
  /-- The stage's entry bundle has issued. -/
  entered : Bool
  stall : Option Stall
  /-- Halts that take effect at the first bundle issue after their detection, by detection cycle and code (R79, R81, R97,
  R104, R111). -/
  deferred : List HaltInfo
  /-- Words that a stream of the operation in the array is to find in error, with the halt of the detection (R125). -/
  arrayErrors : List (HaltInfo × Nat)
  haltTaken : Bool
  /-- Core cycle of its entry into AT POST as a route time (R435). -/
  postTime : Nat
  lastBundle : Nat
  /-- Non-empty slots of the last issued bundle, bit 0 S to bit 5 Y (R428). -/
  lastSlots : Nat
  parameter : BitVec 20
  /-- Bank b: bundle a at 4096 b + a; stage entry i at 256 b + i; descriptor d at 56 b + d. -/
  bundles : Table (BitVec 256)
  stageTable : Table (BitVec 32)
  descriptors : Table (BitVec 256)
  /-- Bundles (as above) and stage-table entries (8192 + 256 b + i) whose check bits mismatch (R78). -/
  bankErrors : List Nat
  scratch : Memory
  /-- Byte addresses of 64-bit words whose check bits mismatch (R124). -/
  scratchErrors : List Nat
  /-- Words detected since the last repair (R126). -/
  repairs : List Nat
  /-- Written marks and selectors by line number (R118, R119). -/
  written : Table Bool
  selector : Table Bool
  /-- Region descriptors (Table 5.1). -/
  regions : Table (BitVec 128)
  powered : BitVec 4
  waybill : BitVec 1024
  waybillAt : Table Nat
  done : BitVec 56
  doneAt : Table Nat
  inFlight : BitVec 56
  issuedInStage : BitVec 56
  depots : List DepotOp
  /-- Users waiting for the outer port of a bank (R112): bit 0 mesh, 1 depot, 2 mirror, 3 steward. -/
  outer : Table (BitVec 4)
  /-- The first core cycle in which the outer port of a bank is free (R110). -/
  outerFree : Table Nat
  /-- Mirror writes that wait for their bank's outer port: bank, home address and bytes (R112, R122). -/
  mirrors : List (Nat × Nat × Bytes)
  /-- Slots retired in the stage, by slot (R429). -/
  retiredSlots : Table Nat
  deriving DecidableEq, Repr

/-- A row's clock (R217, R243): root cycles since its last core cycle, and trips in the stage. -/
structure RowClock where
  phase : Nat
  tripped : Bool
  /-- Clocks stopped by the thermal hold (R413). -/
  stopped : Bool
  /-- A trip at or after action 5 of a post: the row starts the next stage throttled (R484). -/
  carry : Bool
  /-- Ticks for which the clock is still held low after a divider switch (R242). -/
  low : Nat
  deriving DecidableEq, Repr

/-- Route time (R227 to R232). -/
structure RouteTime where
  counter : BitVec 64
  /-- Rate R in 1/256 ppm (R232). -/
  rate : Int
  /-- Rate accumulator in 1/256 of a millionth of a tick. -/
  acc : Int
  goodBeacons : Nat
  /-- Route time of the last parent beacon. -/
  lastBeacon : Nat
  /-- Announced adjustment: the counter value and true for a skip, false for an insert (R227). -/
  adjust : Option (Nat × Bool)
  /-- The counter is in the extra cycle of an insert (R228). -/
  holding : Bool
  /-- Route time of the entry into HOLDOVER (Table 9.5). -/
  holdoverAt : Nat
  /-- Hop count in the last beacon of each link (R229). -/
  hops : Table Nat
  /-- Route-clock cycles since the part was reset, which neither an adjustment nor a load moves: the line rate follows them
  (R228, R249). -/
  cycles : Nat
  /-- One plus the route time of the last beacon of each link (R236). -/
  heardAt : Table Nat
  /-- The device has been given the master's address and has still to load its counter (R229). -/
  takeover : Bool
  deriving DecidableEq, Repr

/-- Where the device stands in its stage (R239, R240, R297). -/
inductive Phase where
  | none | armed | stage | rest | voted | verdict
  deriving DecidableEq, Repr

/-- Stage control. -/
structure StageCtl where
  phase : Phase
  number : BitVec 64
  index : Nat
  start : Nat
  length : Nat
  rest : Nat
  nextStart : Nat
  firstRun : Bool
  /-- Logical cores still being reloaded (R314, R212, R464). -/
  reloading : List Nat
  /-- Route time at which the verdict came. -/
  verdictAt : Nat
  /-- The reload or another action has not finished when the stage was to start (R24). -/
  unready : Bool
  /-- The physical core that a switch-over at action 3 of this post retires (R314). -/
  switchOver : Option Nat
  deriving DecidableEq, Repr

/-- A vote (Table 11.10). -/
structure Vote where
  foul : Bool
  stop : Bool
  ext : Nat
  causes : BitVec 16
  notices : List (BitVec 32)
  flags : BitVec 8
  deriving DecidableEq, Repr

/-- The post unit (R297 to R300). -/
structure VoteUnit where
  /-- Causes that arose since the previous vote formed. -/
  causes : BitVec 16
  stop : Bool
  ext : Nat
  halted : Bool
  stepChanged : Bool
  notices : List (BitVec 32)
  combined : Option Vote
  phase : Nat
  received : List (Nat × Nat × Vote)
  own : Option Vote
  prevNumber : BitVec 64
  prevFoul : Bool
  /-- The combined vote of the previous post and its stage number, for R21, R288 and R309. -/
  last : Option (BitVec 64 × Vote)
  /-- This device was UNFIT at the previous post (R237). -/
  prevUnfit : Bool
  /-- Stage number and rest start that the device votes with; of its own schedule, or those of R313. -/
  number : BitVec 64
  t0 : Nat
  /-- Escalations that this post raises: cause, kind, unit, detail (R320). -/
  raised : List (Nat × Nat × Nat × Nat)
  /-- A cause of loss class has arisen since the previous vote (R312). -/
  loss : Bool
  /-- Escalations of the loss-class causes that have arisen since the previous vote (R306, R320). -/
  lossRaised : List (Nat × Nat × Nat × Nat)
  /-- The vote that this post decides holds a cause of loss class (R306, R312). -/
  lossVoted : Bool
  /-- The device has failed between GO and its start, and misses its first post (R327). -/
  misses : Bool
  /-- The open vote is one of a post that the device follows without a leg (R313). -/
  follows : Bool
  deriving DecidableEq, Repr

/-- Strike history of one unit (R303, R304): its last 64 posts, newest in bit 0. -/
structure Strikes where
  history : BitVec 64
  /-- Sites of the post before, none where it scored no strike. -/
  lastSites : List Nat
  /-- Sites detected since the previous vote, oldest first. -/
  sites : List Nat
  /-- Route time of the first detection that still counts (R318). -/
  first : Nat
  permanent : Bool
  deriving DecidableEq, Repr

/-- A green region of external memory (R163). -/
structure GreenRegion where
  base : Nat
  pages : Nat
  back : Nat
  deriving DecidableEq, Repr

/-- A dynamic-class or host access to memory that waits for its controllers (R161). -/
inductive MemAccess where
  /-- A part of a host write, inside one line. -/
  | hostWrite (address : Nat) (data : Bytes)
  /-- A host read of n bytes through a window. -/
  | hostRead (window : HostWindow) (address n : Nat)
  /-- A fabric-copy bale from a device (R346). -/
  | copyBale (source tag address : Nat) (data : Bytes)
  /-- A page-copy bale for a glaze engine (R192). -/
  | pageBale (engine source tag address : Nat) (data : Bytes)
  deriving DecidableEq, Repr

/-- External memory (06). -/
structure ExtMem where
  cells : Memory
  /-- Line addresses that hold an uncorrectable codeword, with its syndrome bytes. -/
  bad : Table (BitVec 32)
  /-- Is the codeword in error the second one of such a line (OD 40xx.12)? -/
  badHalf : Table Bool
  green : List GreenRegion
  /-- Epoch bit by frame-0 page number (R163). -/
  epoch : Table Bool
  /-- Touch list per interface, page numbers (R164). -/
  touched : Table (List Nat)
  /-- Bad-line lists per interface (OD 40xx.14). -/
  badLines : Table (List Nat)
  /-- Re-reads pending: line and route time of detection (R307). -/
  rereads : List (Nat × Nat)
  /-- The lines whose re-reads found fired data lost, until a vote takes them (R307). -/
  lost : List Nat
  /-- Dies whose interface found its touch list full in this stage (OD 401x.05). -/
  full : List Nat
  /-- Refreshes that a controller has postponed while plan requests wait (R161). -/
  postponed : Table Nat
  /-- Bytes of a line with an uncorrectable codeword that have been written since, as a mask (R340). -/
  rewritten : Table Nat
  /-- Dynamic-class and host accesses that have not been served yet, oldest first (R161). -/
  waiting : List MemAccess
  deriving DecidableEq, Repr

/-- A request waiting at or held by a glaze engine (R172 to R174). -/
structure GlazeReq where
  /-- Some core and outbound descriptor for a core request, none for a fabric one. -/
  source : Option (Nat × Nat)
  bytes : Bytes
  /-- Route time of its arrival. -/
  arrived : Nat
  deriving DecidableEq, Repr

/-- A dynamic operation of an engine (R191). -/
structure DynOp where
  bytes : Bytes
  next : Nat
  worst : Nat
  copied : Nat
  /-- Lines of the next pair that have been copied (R180). -/
  line : Nat
  /-- Transfers of the pairs that have been sent to another engine, each with its status (R193). -/
  sent : List (Nat × Nat)
  deriving DecidableEq, Repr

/-- A glaze engine (07). -/
structure Engine where
  waiting : List GlazeReq
  held : List GlazeReq
  inbox : Bytes
  dynamic : List DynOp
  /-- A datapath check error ends the request being worked on (R194). -/
  checkError : Bool
  /-- Bales of a page, by its number, that have been written in this window for a remote copy (R192). -/
  incoming : Table Nat
  deriving DecidableEq, Repr

/-- What the context unit holds for one context (08). -/
structure Context where
  /-- Which frame is the fired one (R198). -/
  epoch : Bool
  /-- The logical core that has written the entry in this stage: the entry is touched (R201). -/
  writer : Option Nat
  /-- The entry has fired since its region came to be: before that it reads as Table 8.2 resets it. -/
  entered : Bool
  deriving DecidableEq, Repr

/-- An armed weight switch (R214). -/
structure WeightArm where
  slot : Nat
  pointer : Nat
  base : Nat
  from' : Nat
  deriving DecidableEq, Repr

/-- The context unit (R198 to R215). -/
structure CtxUnit where
  table : Table Context
  arm : Option WeightArm
  /-- Balancing as applied, by slot (R209, R362). -/
  balancing : Table Bool
  deriving DecidableEq, Repr

/-- A resident leg: the bytes of its patched image, which stand for the homes the steward installs
(R347, log entry 13). -/
structure Leg where
  img : Memory
  length : Nat
  /-- Fair posts since it rotated in (R211). -/
  quantum : Nat
  /-- Logical cores with a pending bank-switch request, and their active banks, while it is not running (R212). -/
  switches : List Nat
  banks : Table Bool
  deriving DecidableEq, Repr

/-- An outstanding nak: number, when it was sent, how often (R256). -/
structure Nak where
  seq : Nat
  sent : Nat
  times : Nat
  deriving DecidableEq, Repr

/-- A queued replay: number and slot start of the original (R257, R260). -/
structure Replay where
  seq : Nat
  slotStart : Nat
  readyAt : Nat
  deriving DecidableEq, Repr

/-- One Svael link's own end (10). -/
structure Link where
  /-- Copies kept for replay: slot number and bale, oldest first (R256). -/
  copies : List (Nat × BitVec 1280)
  acked : Nat
  lastAck : Nat
  received : Table Bool
  cumulative : Nat
  naks : List Nak
  nakNow : List Nat
  replays : List Replay
  /-- The dynamic queue with each bale's requester port, lowest first (R296, Table 11.8). -/
  dynamic : List (Nat × BitVec 1280)
  /-- Dynamic bales that the link sends again, ahead of its queue: held ones and those that were unacknowledged at a restart
  (R267, R268). They have been enqueued before, so that they take none of the queue's places and no mark (log entry 60). -/
  again : List (BitVec 1280)
  held : List (BitVec 1280)
  detours : List (BitVec 1280)
  control : List (BitVec 8 × BitVec 46)
  downSlots : Nat
  downAt : Nat
  downPosts : Nat
  nextSlot : Nat
  base : Nat
  echoes : List Nat
  echoSent : Nat
  trainStep : Nat
  /-- This end leads the retraining attempt: it opens step 1, the other end answers (R269). -/
  leads : Bool
  cleanSlots : Nat
  failures : List Nat
  failedAt : Nat
  lane : Option Bool
  peerReady : Bool
  /-- Plan and detour bales that a relay sends on: slot due and bale (R277). -/
  relays : List (Nat × BitVec 1280)
  /-- The route counter was loaded while the link was up, and the HELLO that restarts the numbering has not gone (R267). -/
  restarting : Bool
  /-- Route times at which the attempt and its present step began (R265). -/
  attemptAt : Nat
  stepAt : Nat
  /-- Route-clock cycle of unit 0 of the stream sent, and the units of the periods begun (R248, R249). -/
  lineAt : Nat
  lineUnits : Nat
  deriving DecidableEq, Repr

/-- The end-to-end state towards and from one device (R293 to R295). -/
structure Window where
  limit : Nat
  nextSeq : BitVec 16
  unacked : Nat
  sinceEcho : Nat
  expect : BitVec 16
  echoDue : Bool
  ackDue : Option Nat
  waiting : List (BitVec 1280)
  /-- Numbers received beyond the next expected one. -/
  ahead : List Nat
  deriving DecidableEq, Repr

/-- A dynamic routing table: axis x 32 + coordinate (R290). -/
abbrev RoutingTable := Table (BitVec 16)

/-- What passes a mesh or die-to-die hop: 128 bytes, a unit that is marked uncorrectable (R305), or the place of one whose bytes have
not come (R281, R282). -/
inductive FabricUnit where
  | data (w : BitVec 1024)
  | marked
  | absent
  deriving DecidableEq, Repr

/-- The fabric state (11). -/
structure Fabric where
  /-- Bytes that wait at a mesh delivery in reduce mode for the rest of their element. -/
  streams : Table Bytes
  /-- Units that have arrived for a local-source transmit entry, by place in its stream (R281):
  (link x 16384 + entry) x 2^20 + place. -/
  sources : Table (Option (BitVec 1024))
  /-- Bytes of a deliver or reduce end that the mesh has written: link x 16384 + entry (R282). -/
  endBytes : Table Nat
  /-- Bales received per receive entry: indexes. -/
  arrived : Table (List Nat)
  /-- Payload kept for a forward entry: (link x 16384 + entry) x 65536 + index. -/
  forwards : Table (BitVec 1152)
  /-- Entries with a bale that was not written (R282). -/
  broken : Table Bool
  /-- Booked detour bales that this device has sent in the stage: leg link, entry and bale (R254, R263). -/
  detoured : List (Nat × Nat × Nat)
  /-- Units moved per mesh entry ((row x 13 + stop) x 4096 + entry) and die-to-die entry. -/
  meshDone : Table Nat
  dieDone : Table Nat
  /-- Units of 128 bytes that wait at an in port of a mesh stop, with the core cycle of their arrival, or at a
  die-to-die send entry, with the tick of it (R305; log entry 24). -/
  units : Table (List (Nat × FabricUnit))
  current : RoutingTable
  next : RoutingTable
  old : RoutingTable
  /-- Notices of the current epoch and notices announced since. -/
  downSet : List (BitVec 32)
  announced : List (BitVec 32)
  switchAt : Nat
  /-- Transfers that a synthetic completion has ended: source and tag (R264). -/
  completed : List (Nat × Nat)
  /-- A routing-epoch switch of the post's action 4 that takes effect with the next stage start (R291). -/
  epochDue : Bool
  /-- The down set that `next` is built from. -/
  nextSet : List (BitVec 32)
  windows : Table Window
  /-- Dynamic transfers in progress: tag to requester. -/
  nextTag : BitVec 24
  deriving DecidableEq, Repr

/-- A prepared start that a later PREPARE, which the device could not follow, has not replaced (R326). -/
structure KeptStart where
  msg : StartMsg
  children : List Nat
  discardAt : Nat
  deriving DecidableEq, Repr

/-- The prepared start and the rounds of R325. Devices are named by their logical addresses. -/
structure StartUnit where
  /-- The PREPARE that the device acts on, until GO, ABORT or its discard. -/
  msg : Option StartMsg
  /-- Who sent it; none at the starter. -/
  parent : Option Nat
  children : List Nat
  /-- Children that have answered: address, status, failing coordinate. -/
  answered : List (Nat × Nat × Nat)
  /-- The device's own status; it holds a prepared start where it is 0. -/
  ownStatus : Nat
  notices : List (BitVec 32)
  /-- Route time until which it waits for its children; 0 once it has answered. -/
  deadline : Nat
  discardAt : Nat
  /-- The start that is still prepared behind one whose own check failed. -/
  kept : Option KeptStart
  deriving DecidableEq, Repr

/-- An outbound record held until the post (R343). -/
structure OutRecord where
  ws : Nat
  core : Nat
  header : BitVec 512
  deriving DecidableEq, Repr

/-- One intake record line of the running stage (R340, R132). -/
structure IntakeRec where
  point : Nat
  ws : Nat
  first : Nat
  headers : List (BitVec 512)
  hostRelease : BitVec 32
  deriving DecidableEq, Repr

/-- Waystations, intake and interrupts (13). -/
structure HostUnit where
  intake : List IntakeRec
  /-- Cursor of the intake record per waystation. -/
  recordCursor : Table Nat
  /-- Points already served in this run. -/
  served : List Nat
  records : List OutRecord
  overflow : Bool
  /-- Slots whose log copy is incomplete, per waystation (R353). -/
  copying : Table (List Nat)
  staged : List Bytes
  /-- Destination of the fabric copy that runs (R346). -/
  copyTo : Option Nat
  /-- Tag of that copy's transfer (R264). -/
  copyTag : Nat
  /-- The slot and the leg that the loader is installing (R477). -/
  loading : Option (Nat × Leg)
  /-- The replay log is the `logUsed` bytes from offset `logTail`, of which replay has taken `replayed` (R353, R354). -/
  logTail : Nat
  logUsed : Nat
  replayed : Nat
  /-- Interrupt sources: route time the 1 ms window ends, and whether more events came (R345). -/
  windowEnd : Table Nat
  more : Table Bool
  /-- Sources that have raised a message at the post that runs; none outside a post (R345). -/
  postRaised : Option (List Nat)
  msixTable : Memory
  /-- The CXL component registers in BAR0 (Table 13.2). -/
  component : Memory
  lastFired : BitVec 64
  deriving DecidableEq, Repr

/-- A read snapshot (R368). -/
structure Snapshot where
  requester : Requester
  transaction : BitVec 32
  id : Nat
  bytes : Bytes
  last : Nat
  deriving DecidableEq, Repr

/-- An open segmented write (R368). -/
structure SegWrite where
  requester : Requester
  transaction : BitVec 32
  id : Nat
  next : Nat
  bytes : Bytes
  last : Nat
  deriving DecidableEq, Repr

/-- A tunnelled request waiting for its reply (R370, R374). -/
structure Tunnel where
  op : Nat
  transaction : BitVec 32
  /-- Object of the request: index x 256 + subindex. -/
  id : Nat
  segment : Nat
  target : BitVec 20
  /-- Ring port and station; none for the BAR2 window. -/
  back : Option (Bool × BitVec 48)
  /-- The VLAN tag of the request, or nothing (R366). -/
  vlan : Bytes
  /-- Transfer tag of its bale. -/
  tag : Nat
  sent : Nat
  deriving DecidableEq, Repr

/-- The dictionary server (14). -/
structure DictUnit where
  /-- Journal entries, newest first, at most 4,096 (R377). -/
  journal : List (BitVec 512)
  entries : Nat
  latch : List (Nat × Nat)
  pendingPost : List Nat
  snapshots : List Snapshot
  segment : Option SegWrite
  tunnels : List Tunnel
  window : Memory
  deriving DecidableEq, Repr

/-- An armed tally (R436): its operands as they stood when it was armed. -/
structure Tally where
  mode : Nat
  time : Nat
  stage : Nat
  offset : Nat
  number : Nat
  slot : Nat
  /-- The tick at which a mode-2 tally triggers, once the first run of its stage has started (R437). -/
  due : Option Nat
  deriving DecidableEq, Repr

/-- Observation (17). -/
structure Observe where
  /-- What each enabled counter has seen of its event in the cycle that runs. -/
  accum : Table Nat
  /-- Counters whose event value was above the threshold in the previous cycle (mode 4). -/
  above : Table Bool
  samples : List Bytes
  fingerprint : BitVec 64
  log : List Bytes
  armed : Option Tally
  /-- Logical cores whose record a snapshot still awaits, with the ends of cycles to come till it is taken (R437). -/
  latching : Table Nat
  /-- The buffer object of that snapshot (R438). -/
  latchInto : Nat
  overflowEnd : Nat
  overflowMore : Bool
  deriving DecidableEq, Repr

/-- A cargo entry (R385 to R393). -/
structure CargoEntry where
  state : Nat
  base : Nat
  pages : Nat
  manifest : Bytes
  leaves : List Bytes
  matched : Table Bool
  root : Bytes
  content : BitVec 64
  publisher : Nat
  damaged : Nat
  deriving DecidableEq, Repr

/-- What a running cargo command comes to at its end (R388, R390, R393). -/
structure CargoRun where
  status : Nat
  detail : Nat
  /-- The entry that an open fills. -/
  opened : Option (Nat × CargoEntry)
  /-- Pages of an entry that a pages command has judged, oldest first. -/
  judged : List (Nat × Nat × Bool)
  /-- The entry that a release frees. -/
  freed : Option Nat
  deriving DecidableEq, Repr

/-- Cargo, firmware and attestation commands (15). -/
structure CargoUnit where
  entries : Table CargoEntry
  running : Option CargoRun
  /-- A firmware command is running, with the status it will end with. -/
  firmware : Option Nat
  /-- Command 2 has returned 0x00 since the inactive slot was last written (R398). -/
  verifiedSince : Bool
  /-- The report of the attestation that runs. -/
  attesting : Option Bytes
  report : Bytes
  deriving DecidableEq, Repr

/-- What a survey finds for a region (R419): its new offset in mV and floor, whether its margin is exhausted, and the worst delay with
its monitor. -/
structure SurveyPlan where
  offset : Int
  floor : Nat
  exhausted : Bool
  delay : Nat
  monitor : Nat
  deriving DecidableEq, Repr

/-- Power, thermal and ageing state that is no object (16). -/
structure PowerUnit where
  /-- Target step as applied (R241, R362). -/
  target : Nat
  pollFailures : Table Nat
  /-- Samples of input power in mW, newest first: those of the last 1 ms; and 1 ms averages of the last 1 s (R411). -/
  averages : List Nat
  second : List Nat
  /-- Samples since the newest 1 ms average in `second`, and energy below one mJ in units of 10^-10 mJ. -/
  sampled : Nat
  energyRest : Nat
  raiseDue : Bool
  thermalRaise : Bool
  hold : Bool
  restoreBase : Nat
  monitors : Table (BitVec 16)
  /-- What the pending survey has found, by region (R419). -/
  planned : Table SurveyPlan
  survey : Bool
  /-- Regions that the survey is for; empty for every region (R420). -/
  surveyOf : List Nat
  /-- A trip, a power trip, a hold or a region at the restore threshold since the previous post (R415). -/
  restless : Bool
  /-- Regulators take new targets when the next stage starts: no ramp enters a rest (R241). -/
  targetsDue : Bool
  /-- Regions that a sensor sample has been taken of since reset (R412). -/
  sensed : List Nat
  /-- Regions other than a row's that their last sample has shown at the trip threshold (R412). -/
  hot : List Nat
  /-- The 1 ms average exceeds the peak limit, and the rows have tripped for it in this stage (R411). -/
  overPeak : Bool
  /-- Samples of the regulators' input currents since reset (R411). -/
  samples : Nat
  /-- Fair posts since the last survey (R419). -/
  stagesPassed : Nat
  deriving DecidableEq, Repr

/-- Boot, calibration and per-die resets (18). -/
structure BootUnit where
  stepsDone : List CalStep
  /-- One plus the route time of its lock loss, for a die that is in a per-die reset (R464). -/
  dieReset : Table Nat
  /-- Dies that a per-die reset has reset since the previous vote. -/
  resetDies : List Nat
  /-- Dies whose cores the post that runs reloads (R464). -/
  reloadDies : List Nat
  /-- Number of each die's last calibration of its same-step crossings, 0 before the first (R223). -/
  calibrations : Table Nat
  /-- The last reset of the part was warm: RESET_N with PWRGD_IN high (R462). -/
  warm : Bool
  /-- Route time from which the steward raises the rails (R462). -/
  railsFrom : Nat
  runningFirmware : Bool
  deriving DecidableEq, Repr

/-- What Table 15.1 gives the device certificate beyond the fields that the part's other fuses hold. -/
structure Certificate where
  /-- Days since 2000-01-01. -/
  date : BitVec 32
  deviceKey : Bytes
  signature : Bytes
  deriving DecidableEq, Repr

/-- Fused and one-time-programmed values (R7, R382, R383, R396). -/
structure Fuses where
  orderingCode : BitVec 8
  stepping : BitVec 8
  stackGiB : BitVec 8
  serial : BitVec 64
  seeds : Bytes
  certificate : Certificate
  rootKeyHash : Bytes
  floor : BitVec 8
  deriving DecidableEq, Repr

/-- Pins that hold a level (Table 18.4). -/
structure Pins where
  coord : BitVec 20
  recovery : Bool
  testEn : Bool
  perstN : Bool
  thermtripN : Bool
  pmbOwnN : Bool
  deriving DecidableEq, Repr

/-- What leaves the device. The model's own log of it, newest first (log entry 3). -/
inductive Output where
  | bale (link : Nat) (slot : Nat) (bale : BitVec 1280)
  /-- The units before the bales of a period that begins at a slot (R249). -/
  | units (link : Nat) (slot : Nat) (units : List (BitVec 32))
  | frame (port : Bool) (bytes : Bytes)
  | msix (vector : Nat)
  | hostData (bytes : Bytes)
  | hostPoison
  | hostAbort
  /-- The error status with which a refused host write completes (R167). -/
  | hostWriteError
  | completion (tag : BitVec 24) (status : Nat)
  deriving DecidableEq, Repr

/-- The whole state of the device. -/
structure State where
  pending : List Instr
  out : List Output
  fresh : Nat
  fuses : Fuses
  flash : Memory
  pins : Pins
  od : Table Nat
  odb : Table Bytes
  time : RouteTime
  rows : Table RowClock
  stage : StageCtl
  vote : VoteUnit
  strikes : Table Strikes
  cores : Table Core
  ext : ExtMem
  engines : Table Engine
  ctx : CtxUnit
  legs : Table Leg
  links : Table Link
  fabric : Fabric
  start : StartUnit
  host : HostUnit
  dict : DictUnit
  escalations : List (BitVec 256)
  /-- Route time at which the records of the queue were last delivered (R322). -/
  deliveredAt : Nat
  observe : Observe
  cargo : CargoUnit
  power : PowerUnit
  boot : BootUnit
  deriving DecidableEq, Repr

/-- An inactive loop level. -/
def LoopLevel.reset : LoopLevel := ⟨0, 0, 0⟩

/-- An address generator after R34. -/
def AddrGen.reset : AddrGen := ⟨0, 0, 0, 0, 0⟩

/-- A counter after R34. -/
def Counter.reset : Counter := ⟨0, 0⟩

/-- The registers after R34. -/
def Regs.reset : Regs :=
  { x := [], v := [], k := [], c := [], ag := [], ready := [], cmpWait := 0, vFree := 0, stoch := 0
    errors := [] }

/-- A physical core after a reset of the part. Registers, banks and scratchpad are zero: DESIGN CHOICE
(log entry 9); the spec gives them values at the start-up test (R456) and at a stage start (R34). -/
def Core.reset : Core :=
  { state := .idle, regs := Regs.reset, loops := [], acc := [], accInt := 0, accErrors := 0, mops := [], drains := []
    stores := [], region := none, pc := 0, bank := false, hasBank := true, cycle := 0, issued := 0, entered := false
    stall := none, deferred := [], arrayErrors := [], haltTaken := false, postTime := 0, lastBundle := 0, lastSlots := 0, parameter := 0
    bundles := [], stageTable := [], descriptors := [], bankErrors := [], scratch := []
    scratchErrors := [], repairs := [], written := [], selector := [], regions := [], powered := 0
    waybill := 0, waybillAt := [], done := 0, doneAt := [], inFlight := 0, issuedInStage := 0
    depots := [], outer := [], outerFree := [], mirrors := [], retiredSlots := [] }

/-- Physical core p after a reset of the part: column 12 of each row is the reserve (R28, Table 2.2). -/
def Core.resetAt (p : Nat) : Core :=
  if p % 13 = 12 then { Core.reset with state := .standby } else Core.reset

/-- A row's clock after reset. -/
def RowClock.reset : RowClock := ⟨0, false, false, false, 0⟩

/-- A context after reset. -/
def Context.reset : Context := ⟨false, none, false⟩

/-- A strike history after reset. -/
def Strikes.reset : Strikes := ⟨0, [], [], 0, false⟩

/-- A glaze engine after reset. -/
def Engine.reset : Engine := ⟨[], [], [], [], false, []⟩

/-- A link's own end after reset. -/
def Link.reset : Link :=
  { copies := [], acked := 0, lastAck := 0, received := [], cumulative := 0, naks := [], nakNow := []
    replays := [], dynamic := [], again := [], held := [], detours := [], control := [], downSlots := 0, downAt := 0
    downPosts := 0, nextSlot := 0, base := 0, echoes := [], echoSent := 0, trainStep := 0, leads := false, cleanSlots := 0
    failures := [], failedAt := 0, lane := none, peerReady := false, relays := []
    restarting := false, attemptAt := 0, stepAt := 0, lineAt := 0, lineUnits := 0 }

/-- The window towards a destination that has exchanged nothing (R294): 64 bales. -/
def Window.reset : Window := ⟨64, 0, 0, 0, 0, false, none, [], []⟩

/-- A free cargo entry (Table 15.7). -/
def CargoEntry.reset : CargoEntry :=
  { state := 0, base := 0, pages := 0, manifest := [], leaves := [], matched := [], root := []
    content := 0, publisher := 0, damaged := 0xFFFFFFFF }

/-- A leg slot that holds nothing. -/
def Leg.reset : Leg := ⟨[], 0, 0, [], []⟩

/-- Fuses of an unprogrammed choice of part: a G9-36H of stepping A1. DESIGN CHOICE (log entry 5). -/
def Fuses.reset : Fuses :=
  { orderingCode := 0x36, stepping := 0xA1, stackGiB := 36, serial := 0, seeds := [], certificate := { date := 0, deviceKey := [], signature := [] }
    rootKeyHash := List.replicate 32 0, floor := 0 }

/-- The state right after a reset of the part (R358, R450): every object at its default, every queue
empty, the device in BOOT with its PLLs not yet locked. -/
def State.reset : State :=
  { pending := [], out := [], fresh := 0, fuses := Fuses.reset, flash := []
    pins := { coord := 0, recovery := false, testEn := false, perstN := false, thermtripN := true
              pmbOwnN := true }
    od := [], odb := []
    time := { counter := 0, rate := 0, acc := 0, goodBeacons := 0, lastBeacon := 0, adjust := none
              holding := false, holdoverAt := 0, hops := [], cycles := 0, heardAt := [], takeover := false }
    rows := []
    stage := { phase := .none, number := 0, index := 0, start := 0, length := 0, rest := 0, nextStart := 0
               firstRun := true, reloading := [], verdictAt := 0, unready := false, switchOver := none }
    vote := { causes := 0, stop := false, ext := 0, halted := false, stepChanged := false, notices := []
              combined := none, phase := 0, received := [], own := none
              prevNumber := 0xFFFFFFFFFFFFFFFF, prevFoul := false, last := none, prevUnfit := false
              number := 0, t0 := 0, raised := [], loss := false, lossRaised := [], lossVoted := false
              misses := false, follows := false }
    strikes := [], cores := []
    ext := { cells := [], bad := [], badHalf := [], postponed := [], green := [], epoch := [], touched := [], badLines := [], rereads := []
             lost := [], full := [], rewritten := [], waiting := [] }
    engines := [], ctx := { table := [], arm := none, balancing := [] }, legs := [], links := []
    fabric := { streams := [], sources := [], endBytes := [], arrived := [], forwards := [], broken := [], detoured := [], meshDone := []
                dieDone := [], units := [], current := [], next := [], old := [], downSet := []
                announced := [], switchAt := 0, epochDue := false, nextSet := [], windows := [], nextTag := 0
                completed := [] }
    start := { msg := none, parent := none, children := [], answered := [], ownStatus := 0, notices := []
               deadline := 0, discardAt := 0, kept := none }
    host := { intake := [], recordCursor := [], served := [], records := [], overflow := false
              copying := [], staged := [], copyTo := none, copyTag := 0, loading := none, logTail := 0, logUsed := 0, replayed := 0, windowEnd := [], more := [], postRaised := none
              msixTable := [], component := [], lastFired := 0xFFFFFFFFFFFFFFFF }
    dict := { journal := [], entries := 0, latch := [], pendingPost := [], snapshots := []
              segment := none, tunnels := [], window := [] }
    escalations := [], deliveredAt := 0
    observe := { accum := [], above := [], samples := [], fingerprint := 0, log := [], armed := none, latching := [], latchInto := 0, overflowEnd := 0
                 overflowMore := false }
    cargo := { entries := [], running := none, firmware := none, verifiedSince := false, attesting := none
               report := [] }
    power := { target := 0, pollFailures := [], averages := [], second := [], sampled := 0, energyRest := 0, raiseDue := false
               thermalRaise := false, hold := false, restoreBase := 0, monitors := [], planned := []
               survey := false, surveyOf := [], restless := false, targetsDue := false, sensed := [], hot := [], overPeak := false, samples := 0, stagesPassed := 0 }
    boot := { stepsDone := [], dieReset := [], resetDies := [], reloadDies := [], calibrations := [], warm := false, railsFrom := 0
              runningFirmware := false } }

/-- Why the device stops. Nothing in the spec stops it: every input is carried out, refused with a status, recorded as a
fault of the device, or ignored, and each of these is a next state. -/
inductive Fault where
  /-- Raised by no meaning: there for the host's interface, which asks for a type of faults. Safe: a stop that cannot
  happen. -/
  | malformedCommand
  deriving DecidableEq, Repr

/-- Why a command has no meaning. -/
inductive Refusal where
  /-- Raised by an arm of exec whose command has no meaning yet. Safe: nothing can be proved of it. -/
  | notModelled (mnemonic : String)
  deriving DecidableEq, Repr

end Sys2Proof.Machine
end

