-- ==== Sys2Proof/Machine/Objects.lean ====
section
/-! DEFINITION. The object dictionary's table: every object of the spec with its type, access class,
default and stated range (R356 to R358, R380 and the object tables of every chapter). -/

namespace Sys2Proof.Machine

/-- Object types (Table 14.1). -/
inductive ObjType where
  | bool | u8 | u16 | u32 | u64 | i32 | str | domain
  deriving DecidableEq, Repr

/-- Access classes (Table 14.2). -/
inductive ObjAccess where
  | ro | rw | rws | wo | const
  deriving DecidableEq, Repr

/-- One row: `indices` indices from `index`, each with `subs` subindices from `sub`. `lo`, `hi` and
`multiple` give the range a write must keep (R356); for STR and DOMAIN rows they are not used. -/
structure ObjRow where
  index : Nat
  indices : Nat
  sub : Nat
  subs : Nat
  type : ObjType
  access : ObjAccess
  dflt : Nat
  lo : Nat
  hi : Nat
  multiple : Nat
  deriving DecidableEq, Repr

/-- Objects of the identity areas (Table 14.10). -/
def objects_identity : List ObjRow := [
  ⟨0x1000, 1, 0x01, 1, .u32, .const, 2569, 0, 4294967295, 1⟩,
  ⟨0x1000, 1, 0x02, 1, .u8, .const, 0, 0, 255, 1⟩,
  ⟨0x1000, 1, 0x03, 1, .u8, .const, 0, 0, 255, 1⟩,
  ⟨0x1000, 1, 0x04, 1, .u8, .const, 0, 0, 255, 1⟩,
  ⟨0x1000, 1, 0x05, 1, .u64, .const, 0, 0, 18446744073709551615, 1⟩,
  ⟨0x1000, 1, 0x06, 1, .u8, .const, 1, 0, 255, 1⟩,
  ⟨0x1000, 1, 0x07, 1, .u8, .const, 1, 0, 255, 1⟩,
  ⟨0x1000, 1, 0x08, 1, .str, .const, 0, 0, 65536, 1⟩,
  ⟨0x1001, 1, 0x01, 1, .u8, .ro, 1, 0, 255, 1⟩,
  ⟨0x1001, 1, 0x02, 1, .u8, .ro, 0, 0, 255, 1⟩,
  ⟨0x1001, 1, 0x03, 1, .u32, .ro, 0, 0, 4294967295, 1⟩,
  ⟨0x1001, 1, 0x04, 1, .u64, .ro, 0, 0, 18446744073709551615, 1⟩,
  ⟨0x1001, 1, 0x05, 1, .u64, .ro, 0, 0, 18446744073709551615, 1⟩,
  ⟨0x1100, 1, 0x01, 1, .u64, .rw, 0, 0, 281474976710655, 1⟩,
  ⟨0x1100, 1, 0x02, 1, .u16, .rws, 34997, 1536, 65535, 1⟩,
  ⟨0x1100, 1, 0x03, 1, .u8, .ro, 0, 0, 255, 1⟩,
  ⟨0x1100, 1, 0x04, 1, .u8, .ro, 0, 0, 255, 1⟩,
  ⟨0x1100, 1, 0x05, 1, .u8, .rws, 0, 0, 2, 1⟩,
  ⟨0x1100, 1, 0x08, 1, .u8, .rw, 32, 1, 255, 1⟩,
  ⟨0x1100, 1, 0x09, 1, .str, .rw, 0, 0, 65536, 1⟩,
  ⟨0x1100, 1, 0x10, 1, .u32, .ro, 0, 0, 4294967295, 1⟩,
  ⟨0x1100, 1, 0x11, 1, .u32, .ro, 0, 0, 4294967295, 1⟩,
  ⟨0x1100, 1, 0x12, 1, .u32, .ro, 0, 0, 4294967295, 1⟩,
  ⟨0x1100, 1, 0x13, 1, .u32, .ro, 0, 0, 4294967295, 1⟩,
  ⟨0x1100, 1, 0x14, 1, .u8, .rw, 0, 0, 255, 1⟩,
  ⟨0x1170, 1, 0x01, 1, .u32, .rw, 0, 0, 16777215, 1⟩,
  ⟨0x1170, 1, 0x02, 1, .u32, .rw, 0, 0, 65536, 1⟩,
  ⟨0x1170, 1, 0x03, 1, .u8, .wo, 0, 1, 3, 1⟩,
  ⟨0x1170, 1, 0x04, 1, .u8, .ro, 0, 0, 255, 1⟩,
  ⟨0x1170, 1, 0x05, 1, .u32, .ro, 0, 0, 4294967295, 1⟩,
  ⟨0x1170, 1, 0x06, 1, .u32, .rw, 0, 0, 1048575, 1⟩,
  ⟨0x1170, 1, 0x07, 1, .u8, .ro, 0, 0, 255, 1⟩,
  ⟨0x1200, 1, 0x01, 1, .u32, .ro, 0, 0, 4294967295, 1⟩,
  ⟨0x1200, 1, 0x02, 1, .u32, .ro, 0, 0, 4294967295, 1⟩,
  ⟨0x1200, 1, 0x03, 1, .u64, .ro, 0, 0, 18446744073709551615, 1⟩,
  ⟨0x1200, 1, 0x04, 1, .u16, .ro, 0, 0, 65535, 1⟩,
  ⟨0x1280, 128, 0x00, 256, .u64, .ro, 0, 0, 18446744073709551615, 1⟩]

/-- Objects of the roles areas (Table 14.10). -/
def objects_roles : List ObjRow := [
  ⟨0x2000, 1, 0x01, 1, .u8, .ro, 0, 0, 255, 1⟩,
  ⟨0x2000, 1, 0x02, 1, .u8, .ro, 0, 0, 255, 1⟩,
  ⟨0x2000, 1, 0x03, 1, .u8, .ro, 0, 0, 255, 1⟩,
  ⟨0x2000, 1, 0x10, 8, .u32, .rws, 0, 0, 4294967295, 1⟩,
  ⟨0x2008, 1, 0x01, 1, .u64, .ro, 0, 0, 18446744073709551615, 1⟩,
  ⟨0x2008, 1, 0x02, 1, .u16, .ro, 0, 0, 65535, 1⟩,
  ⟨0x2008, 1, 0x03, 1, .u16, .ro, 0, 0, 65535, 1⟩,
  ⟨0x2008, 1, 0x04, 1, .u32, .ro, 0, 0, 4294967295, 1⟩,
  ⟨0x2008, 1, 0x05, 1, .u32, .ro, 0, 0, 4294967295, 1⟩,
  ⟨0x2008, 1, 0x06, 1, .u16, .ro, 0, 0, 65535, 1⟩,
  ⟨0x2010, 8, 0x01, 1, .u8, .ro, 0, 0, 255, 1⟩,
  ⟨0x2010, 8, 0x02, 1, .u16, .ro, 0, 0, 65535, 1⟩,
  ⟨0x2010, 8, 0x03, 1, .u16, .ro, 0, 0, 65535, 1⟩,
  ⟨0x2010, 8, 0x04, 1, .u64, .ro, 0, 0, 18446744073709551615, 1⟩,
  ⟨0x2010, 8, 0x05, 1, .u16, .ro, 65535, 0, 65535, 1⟩,
  ⟨0x2010, 8, 0x06, 1, .bool, .ro, 0, 0, 1, 1⟩,
  ⟨0x2010, 8, 0x07, 1, .bool, .rw, 0, 0, 1, 1⟩,
  ⟨0x2010, 8, 0x08, 1, .u8, .ro, 1, 0, 255, 1⟩,
  ⟨0x2010, 8, 0x09, 1, .u16, .ro, 65535, 0, 65535, 1⟩,
  ⟨0x2010, 8, 0x10, 8, .u64, .ro, 0, 0, 18446744073709551615, 1⟩,
  ⟨0x2020, 1, 0x01, 1, .u8, .rw, 0, 0, 7, 1⟩,
  ⟨0x2020, 1, 0x02, 1, .u8, .rw, 0, 0, 7, 1⟩,
  ⟨0x2020, 1, 0x03, 1, .u64, .rw, 0, 0, 18446744073709551615, 1⟩,
  ⟨0x2020, 1, 0x04, 1, .u64, .rw, 0, 0, 18446744073709551615, 1⟩,
  ⟨0x2020, 1, 0x05, 1, .bool, .rw, 0, 0, 1, 1⟩,
  ⟨0x2020, 1, 0x06, 1, .u8, .ro, 0, 0, 255, 1⟩,
  ⟨0x2028, 1, 0x01, 1, .u16, .rw, 0, 0, 4095, 1⟩,
  ⟨0x2028, 1, 0x02, 1, .u16, .rw, 0, 1, 4096, 1⟩,
  ⟨0x2028, 1, 0x03, 1, .u32, .rw, 0, 0, 4294967295, 1⟩,
  ⟨0x2028, 1, 0x04, 1, .u8, .rw, 0, 0, 7, 1⟩,
  ⟨0x2028, 1, 0x05, 1, .bool, .rw, 0, 0, 1, 1⟩,
  ⟨0x2028, 1, 0x06, 1, .u8, .ro, 0, 0, 255, 1⟩,
  ⟨0x2030, 1, 0x01, 1, .u8, .ro, 0, 0, 255, 1⟩,
  ⟨0x2030, 1, 0x02, 1, .u16, .ro, 0, 0, 65535, 1⟩,
  ⟨0x2030, 1, 0x03, 1, .u8, .ro, 0, 0, 255, 1⟩,
  ⟨0x2030, 1, 0x04, 1, .u32, .ro, 0, 0, 4294967295, 1⟩,
  ⟨0x2030, 1, 0x05, 1, .u16, .ro, 0, 0, 65535, 1⟩,
  ⟨0x2030, 1, 0x06, 1, .u32, .ro, 0, 0, 4294967295, 1⟩,
  ⟨0x2030, 1, 0x07, 1, .u32, .ro, 0, 0, 4294967295, 1⟩,
  ⟨0x2040, 1, 0x01, 1, .u8, .ro, 0, 0, 255, 1⟩,
  ⟨0x2040, 1, 0x02, 1, .bool, .ro, 0, 0, 1, 1⟩,
  ⟨0x2040, 1, 0x03, 1, .bool, .ro, 0, 0, 1, 1⟩,
  ⟨0x2040, 1, 0x04, 1, .u64, .ro, 0, 0, 18446744073709551615, 1⟩,
  ⟨0x2040, 1, 0x05, 1, .u32, .ro, 0, 0, 4294967295, 1⟩,
  ⟨0x2100, 1, 0x01, 1, .u8, .rws, 0, 0, 1, 1⟩,
  ⟨0x2100, 1, 0x02, 1, .u32, .ro, 0, 0, 4294967295, 1⟩,
  ⟨0x2110, 8, 0x01, 1, .u8, .ro, 0, 0, 255, 1⟩,
  ⟨0x2110, 8, 0x02, 1, .u8, .ro, 0, 0, 255, 1⟩,
  ⟨0x2110, 8, 0x03, 1, .u8, .ro, 0, 0, 255, 1⟩,
  ⟨0x2110, 8, 0x04, 1, .u8, .ro, 0, 0, 255, 1⟩,
  ⟨0x2110, 8, 0x05, 1, .u8, .ro, 0, 0, 255, 1⟩,
  ⟨0x2110, 8, 0x06, 1, .domain, .ro, 0, 0, 65536, 1⟩,
  ⟨0x2110, 8, 0x07, 1, .domain, .ro, 0, 0, 65536, 1⟩,
  ⟨0x2110, 8, 0x08, 1, .u16, .ro, 0, 0, 65535, 1⟩,
  ⟨0x2110, 8, 0x09, 1, .u32, .ro, 0, 0, 4294967295, 1⟩,
  ⟨0x2110, 8, 0x0A, 1, .u64, .ro, 0, 0, 18446744073709551615, 1⟩,
  ⟨0x2110, 8, 0x0B, 1, .u64, .ro, 0, 0, 18446744073709551615, 1⟩]

/-- Objects of the clocks areas (Table 14.10). -/
def objects_clocks : List ObjRow := [
  ⟨0x2400, 1, 0x01, 1, .u64, .ro, 0, 0, 18446744073709551615, 1⟩,
  ⟨0x2400, 1, 0x02, 1, .u8, .ro, 0, 0, 255, 1⟩,
  ⟨0x2400, 1, 0x03, 1, .u32, .rws, 0, 0, 4294967295, 1⟩,
  ⟨0x2400, 1, 0x04, 1, .u8, .ro, 255, 0, 255, 1⟩,
  ⟨0x2400, 1, 0x05, 1, .u8, .ro, 15, 0, 255, 1⟩,
  ⟨0x2400, 1, 0x06, 1, .i32, .ro, 0, 0, 4294967295, 1⟩,
  ⟨0x2400, 1, 0x07, 1, .i32, .ro, 0, 0, 4294967295, 1⟩,
  ⟨0x2400, 1, 0x08, 1, .i32, .ro, 0, 0, 4294967295, 1⟩,
  ⟨0x2400, 1, 0x09, 1, .u32, .ro, 0, 0, 4294967295, 1⟩,
  ⟨0x2400, 1, 0x0A, 1, .u32, .ro, 0, 0, 4294967295, 1⟩,
  ⟨0x2400, 1, 0x0B, 1, .u32, .ro, 0, 0, 4294967295, 1⟩,
  ⟨0x2400, 1, 0x0C, 1, .u16, .ro, 0, 0, 65535, 1⟩,
  ⟨0x2402, 1, 0x01, 48, .i32, .ro, 2147483648, 0, 4294967295, 1⟩,
  ⟨0x2403, 1, 0x01, 48, .u32, .ro, 0, 0, 4294967295, 1⟩,
  ⟨0x2410, 1, 0x01, 1, .u8, .rw, 0, 0, 4, 1⟩,
  ⟨0x2410, 1, 0x02, 1, .u8, .ro, 0, 0, 255, 1⟩,
  ⟨0x2410, 1, 0x03, 1, .u8, .ro, 0, 0, 255, 1⟩,
  ⟨0x2410, 1, 0x04, 1, .u8, .ro, 0, 0, 255, 1⟩,
  ⟨0x2410, 1, 0x05, 1, .u8, .ro, 0, 0, 255, 1⟩,
  ⟨0x2410, 1, 0x06, 1, .u32, .ro, 0, 0, 4294967295, 1⟩,
  ⟨0x2410, 1, 0x07, 1, .u32, .ro, 0, 0, 4294967295, 1⟩,
  ⟨0x2410, 1, 0x08, 1, .u8, .ro, 255, 0, 255, 1⟩,
  ⟨0x2420, 1, 0x01, 1, .u8, .ro, 0, 0, 255, 1⟩,
  ⟨0x2420, 1, 0x02, 1, .u8, .ro, 0, 0, 255, 1⟩,
  ⟨0x2420, 1, 0x03, 1, .u16, .ro, 0, 0, 65535, 1⟩,
  ⟨0x2440, 31, 0x01, 1, .u8, .ro, 0, 0, 255, 1⟩,
  ⟨0x2440, 31, 0x02, 1, .u8, .ro, 0, 0, 255, 1⟩,
  ⟨0x2440, 31, 0x03, 1, .bool, .ro, 0, 0, 1, 1⟩,
  ⟨0x2440, 31, 0x04, 1, .u8, .ro, 0, 0, 255, 1⟩]

/-- Objects of the power areas (Table 14.10). -/
def objects_power : List ObjRow := [
  ⟨0x2800, 1, 0x01, 1, .u16, .ro, 0, 0, 65535, 1⟩,
  ⟨0x2800, 1, 0x02, 1, .u16, .rws, 2400, 1000, 2400, 1⟩,
  ⟨0x2800, 1, 0x03, 1, .u16, .rw, 2100, 1000, 2400, 1⟩,
  ⟨0x2800, 1, 0x04, 1, .u16, .ro, 0, 0, 65535, 1⟩,
  ⟨0x2800, 1, 0x05, 1, .u32, .ro, 0, 0, 4294967295, 1⟩,
  ⟨0x2800, 1, 0x06, 1, .u32, .ro, 0, 0, 4294967295, 1⟩,
  ⟨0x2800, 1, 0x07, 1, .u32, .ro, 0, 0, 4294967295, 1⟩,
  ⟨0x2800, 1, 0x08, 1, .u8, .ro, 0, 0, 255, 1⟩,
  ⟨0x2800, 1, 0x09, 1, .bool, .ro, 0, 0, 1, 1⟩,
  ⟨0x2800, 1, 0x0A, 1, .u64, .ro, 0, 0, 18446744073709551615, 1⟩,
  ⟨0x2800, 1, 0x0B, 1, .u8, .ro, 0, 0, 255, 1⟩,
  ⟨0x2801, 1, 0x01, 1, .i32, .rws, 1600, 1120, 1600, 1⟩,
  ⟨0x2801, 1, 0x02, 1, .i32, .rw, 1440, 960, 1520, 1⟩,
  ⟨0x2801, 1, 0x03, 1, .i32, .const, 1680, 0, 4294967295, 1⟩,
  ⟨0x2801, 1, 0x04, 1, .i32, .const, 1840, 0, 4294967295, 1⟩,
  ⟨0x2810, 16, 0x01, 1, .bool, .ro, 0, 0, 1, 1⟩,
  ⟨0x2810, 16, 0x02, 1, .u16, .ro, 0, 0, 65535, 1⟩,
  ⟨0x2810, 16, 0x03, 1, .u16, .ro, 0, 0, 65535, 1⟩,
  ⟨0x2810, 16, 0x04, 1, .u32, .ro, 0, 0, 4294967295, 1⟩,
  ⟨0x2810, 16, 0x05, 1, .i32, .ro, 0, 0, 4294967295, 1⟩,
  ⟨0x2810, 16, 0x06, 1, .u16, .ro, 0, 0, 65535, 1⟩,
  ⟨0x2810, 16, 0x07, 1, .u8, .ro, 0, 0, 255, 1⟩,
  ⟨0x2810, 16, 0x09, 1, .u32, .ro, 0, 0, 4294967295, 1⟩,
  ⟨0x2840, 31, 0x01, 1, .u16, .ro, 0, 0, 65535, 1⟩,
  ⟨0x2840, 31, 0x02, 1, .u16, .ro, 0, 0, 65535, 1⟩,
  ⟨0x2840, 31, 0x03, 1, .u32, .ro, 0, 0, 4294967295, 1⟩,
  ⟨0x2840, 31, 0x04, 1, .u8, .ro, 0, 0, 255, 1⟩,
  ⟨0x2840, 31, 0x05, 1, .i32, .ro, 0, 0, 4294967295, 1⟩,
  ⟨0x2840, 31, 0x06, 1, .i32, .ro, 0, 0, 4294967295, 1⟩,
  ⟨0x2840, 31, 0x07, 1, .u32, .ro, 0, 0, 4294967295, 1⟩,
  ⟨0x2C00, 1, 0x01, 1, .u32, .ro, 0, 0, 4294967295, 1⟩,
  ⟨0x2C00, 1, 0x02, 1, .u64, .ro, 0, 0, 18446744073709551615, 1⟩,
  ⟨0x2C00, 1, 0x03, 1, .u64, .ro, 0, 0, 18446744073709551615, 1⟩,
  ⟨0x2C00, 1, 0x04, 1, .u8, .rws, 2, 0, 4, 1⟩,
  ⟨0x2C00, 1, 0x05, 1, .u16, .rws, 24, 16, 64, 1⟩,
  ⟨0x2C00, 1, 0x06, 1, .bool, .rw, 0, 0, 1, 1⟩,
  ⟨0x2C40, 31, 0x01, 1, .i32, .ro, 0, 0, 4294967295, 1⟩,
  ⟨0x2C40, 31, 0x02, 1, .i32, .ro, 100, 0, 4294967295, 1⟩,
  ⟨0x2C40, 31, 0x03, 1, .u16, .ro, 0, 0, 65535, 1⟩,
  ⟨0x2C40, 31, 0x04, 1, .domain, .ro, 0, 0, 65536, 1⟩,
  ⟨0x2C40, 31, 0x05, 1, .u8, .ro, 0, 0, 255, 1⟩,
  ⟨0x2C40, 31, 0x06, 1, .u8, .ro, 0, 0, 255, 1⟩,
  ⟨0x2C40, 31, 0x07, 1, .u8, .ro, 0, 0, 255, 1⟩]

/-- Objects of the cores areas (Table 14.10). -/
def objects_cores : List ObjRow := [
  ⟨0x3000, 288, 0x01, 1, .u16, .ro, 0, 0, 65535, 1⟩,
  ⟨0x3000, 288, 0x02, 1, .u8, .ro, 1, 0, 255, 1⟩,
  ⟨0x3000, 288, 0x03, 1, .u8, .ro, 0, 0, 255, 1⟩,
  ⟨0x3000, 288, 0x04, 1, .bool, .rw, 0, 0, 1, 1⟩,
  ⟨0x3000, 288, 0x05, 1, .u8, .ro, 0, 0, 255, 1⟩,
  ⟨0x3000, 288, 0x10, 1, .u64, .ro, 0, 0, 18446744073709551615, 1⟩,
  ⟨0x3000, 288, 0x11, 1, .u64, .ro, 0, 0, 18446744073709551615, 1⟩,
  ⟨0x3000, 288, 0x12, 1, .u64, .ro, 0, 0, 18446744073709551615, 1⟩,
  ⟨0x3000, 288, 0x13, 1, .u32, .ro, 0, 0, 4294967295, 1⟩,
  ⟨0x3000, 288, 0x20, 1, .u8, .ro, 0, 0, 255, 1⟩,
  ⟨0x3000, 288, 0x21, 1, .u32, .ro, 0, 0, 4294967295, 1⟩,
  ⟨0x3000, 288, 0x22, 1, .u32, .ro, 0, 0, 4294967295, 1⟩,
  ⟨0x3000, 288, 0x23, 1, .u32, .ro, 0, 0, 4294967295, 1⟩,
  ⟨0x3000, 288, 0x24, 1, .u8, .ro, 0, 0, 255, 1⟩,
  ⟨0x3000, 288, 0x30, 1, .domain, .ro, 0, 0, 65536, 1⟩,
  ⟨0x3000, 288, 0x31, 1, .u64, .ro, 0, 0, 18446744073709551615, 1⟩,
  ⟨0x3000, 288, 0x32, 1, .u64, .ro, 0, 0, 18446744073709551615, 1⟩,
  ⟨0x3000, 288, 0x80, 128, .u64, .ro, 0, 0, 18446744073709551615, 1⟩,
  ⟨0x3400, 24, 0x01, 1, .u8, .ro, 12, 0, 255, 1⟩,
  ⟨0x3400, 24, 0x02, 1, .bool, .ro, 1, 0, 1, 1⟩,
  ⟨0x3400, 24, 0x10, 13, .u8, .ro, 0, 0, 255, 1⟩,
  ⟨0x3400, 24, 0x20, 13, .u8, .ro, 0, 0, 255, 1⟩]

/-- Objects of the fabric areas (Table 14.10). -/
def objects_fabric : List ObjRow := [
  ⟨0x3800, 48, 0x01, 1, .u8, .ro, 0, 0, 255, 1⟩,
  ⟨0x3800, 48, 0x02, 1, .u32, .ro, 4294967295, 0, 4294967295, 1⟩,
  ⟨0x3800, 48, 0x03, 1, .u8, .ro, 255, 0, 255, 1⟩,
  ⟨0x3800, 48, 0x04, 1, .u8, .ro, 0, 0, 255, 1⟩,
  ⟨0x3800, 48, 0x05, 1, .u32, .ro, 0, 0, 4294967295, 1⟩,
  ⟨0x3800, 48, 0x06, 1, .u8, .ro, 0, 0, 255, 1⟩,
  ⟨0x3800, 48, 0x10, 1, .u16, .ro, 0, 0, 65535, 1⟩,
  ⟨0x3800, 48, 0x11, 1, .u32, .ro, 0, 0, 4294967295, 1⟩,
  ⟨0x3800, 48, 0x12, 1, .u64, .ro, 0, 0, 18446744073709551615, 1⟩,
  ⟨0x3800, 48, 0x13, 1, .u32, .ro, 0, 0, 4294967295, 1⟩,
  ⟨0x3800, 48, 0x14, 1, .u32, .ro, 0, 0, 4294967295, 1⟩,
  ⟨0x3800, 48, 0x15, 1, .u32, .ro, 0, 0, 4294967295, 1⟩,
  ⟨0x3800, 48, 0x16, 1, .u32, .ro, 0, 0, 4294967295, 1⟩,
  ⟨0x3800, 48, 0x17, 1, .u32, .ro, 0, 0, 4294967295, 1⟩,
  ⟨0x3800, 48, 0x18, 1, .u32, .ro, 0, 0, 4294967295, 1⟩,
  ⟨0x3800, 48, 0x19, 1, .u8, .ro, 0, 0, 255, 1⟩,
  ⟨0x3800, 48, 0x1A, 1, .u32, .ro, 0, 0, 4294967295, 1⟩,
  ⟨0x3800, 48, 0x1B, 1, .u8, .ro, 0, 0, 255, 1⟩,
  ⟨0x3800, 48, 0x1C, 1, .u16, .ro, 0, 0, 65535, 1⟩,
  ⟨0x3800, 48, 0x1D, 1, .u32, .ro, 0, 0, 4294967295, 1⟩,
  ⟨0x3800, 48, 0x1E, 1, .u32, .ro, 0, 0, 4294967295, 1⟩,
  ⟨0x3800, 48, 0x20, 1, .bool, .rw, 0, 0, 1, 1⟩,
  ⟨0x3800, 48, 0x21, 1, .bool, .rw, 0, 0, 1, 1⟩,
  ⟨0x3800, 48, 0x22, 1, .bool, .rws, 0, 0, 1, 1⟩,
  ⟨0x3800, 48, 0x23, 1, .u8, .rws, 1, 1, 2, 1⟩,
  ⟨0x3900, 1, 0x01, 1, .u32, .ro, 0, 0, 4294967295, 1⟩,
  ⟨0x3900, 1, 0x02, 1, .domain, .ro, 0, 0, 65536, 1⟩,
  ⟨0x3900, 1, 0x03, 1, .u32, .ro, 0, 0, 4294967295, 1⟩,
  ⟨0x3900, 1, 0x04, 1, .u32, .ro, 0, 0, 4294967295, 1⟩,
  ⟨0x3900, 1, 0x05, 1, .u64, .ro, 0, 0, 18446744073709551615, 1⟩,
  ⟨0x3901, 1, 0x01, 4, .domain, .ro, 0, 0, 65536, 1⟩,
  ⟨0x3904, 1, 0x01, 1, .u32, .ro, 0, 0, 4294967295, 1⟩,
  ⟨0x3904, 1, 0x02, 1, .u32, .ro, 0, 0, 4294967295, 1⟩,
  ⟨0x3904, 1, 0x03, 1, .u32, .ro, 0, 0, 4294967295, 1⟩,
  ⟨0x3904, 1, 0x04, 1, .u8, .ro, 0, 0, 255, 1⟩,
  ⟨0x3905, 1, 0x01, 1, .u32, .ro, 0, 0, 4294967295, 1⟩,
  ⟨0x3905, 1, 0x02, 1, .u32, .ro, 0, 0, 4294967295, 1⟩,
  ⟨0x3905, 1, 0x03, 1, .u8, .ro, 64, 0, 255, 1⟩,
  ⟨0x3A00, 1, 0x01, 1, .u32, .rws, 0, 0, 1048575, 1⟩,
  ⟨0x3A00, 1, 0x02, 1, .u32, .ro, 4294967295, 0, 4294967295, 1⟩,
  ⟨0x3A00, 1, 0x03, 1, .u8, .rws, 3, 3, 4, 1⟩,
  ⟨0x3A00, 1, 0x04, 1, .u32, .rws, 0, 0, 1048575, 1⟩,
  ⟨0x3A00, 1, 0x05, 1, .u8, .rws, 255, 0, 255, 1⟩,
  ⟨0x3A00, 1, 0x06, 1, .u8, .rws, 0, 0, 16, 1⟩,
  ⟨0x3A00, 1, 0x07, 1, .domain, .rws, 0, 0, 65536, 1⟩,
  ⟨0x3A00, 1, 0x08, 1, .u64, .ro, 0, 0, 18446744073709551615, 1⟩]

/-- Objects of the memory areas (Table 14.10). -/
def objects_memory : List ObjRow := [
  ⟨0x4000, 16, 0x01, 1, .u8, .ro, 0, 0, 255, 1⟩,
  ⟨0x4000, 16, 0x02, 1, .u8, .ro, 0, 0, 255, 1⟩,
  ⟨0x4000, 16, 0x03, 1, .u8, .ro, 0, 0, 255, 1⟩,
  ⟨0x4000, 16, 0x10, 1, .u32, .ro, 0, 0, 4294967295, 1⟩,
  ⟨0x4000, 16, 0x11, 1, .u32, .ro, 0, 0, 4294967295, 1⟩,
  ⟨0x4000, 16, 0x12, 1, .u64, .ro, 0, 0, 18446744073709551615, 1⟩,
  ⟨0x4000, 16, 0x13, 1, .u32, .ro, 0, 0, 4294967295, 1⟩,
  ⟨0x4000, 16, 0x14, 1, .domain, .ro, 0, 0, 65536, 1⟩,
  ⟨0x4000, 16, 0x15, 1, .u32, .ro, 0, 0, 4294967295, 1⟩,
  ⟨0x4000, 16, 0x20, 1, .u16, .ro, 0, 0, 65535, 1⟩,
  ⟨0x4010, 4, 0x01, 1, .u8, .ro, 0, 0, 255, 1⟩,
  ⟨0x4010, 4, 0x02, 1, .u16, .ro, 0, 0, 65535, 1⟩,
  ⟨0x4010, 2, 0x03, 1, .u16, .ro, 0, 0, 65535, 1⟩,
  ⟨0x4010, 2, 0x04, 1, .u16, .ro, 0, 0, 65535, 1⟩,
  ⟨0x4010, 4, 0x05, 1, .u32, .ro, 0, 0, 4294967295, 1⟩,
  ⟨0x4018, 1, 0x01, 1, .u16, .ro, 0, 0, 65535, 1⟩,
  ⟨0x4018, 1, 0x02, 1, .domain, .ro, 0, 0, 65536, 1⟩,
  ⟨0x4020, 8, 0x01, 1, .u8, .ro, 0, 0, 255, 1⟩,
  ⟨0x4020, 8, 0x02, 1, .u8, .ro, 0, 0, 255, 1⟩,
  ⟨0x4020, 8, 0x03, 1, .u8, .ro, 0, 0, 255, 1⟩,
  ⟨0x4020, 8, 0x10, 1, .u32, .ro, 0, 0, 4294967295, 1⟩,
  ⟨0x4020, 8, 0x11, 1, .u32, .ro, 0, 0, 4294967295, 1⟩,
  ⟨0x4020, 8, 0x12, 1, .u64, .ro, 0, 0, 18446744073709551615, 1⟩,
  ⟨0x4020, 8, 0x13, 1, .u32, .ro, 0, 0, 4294967295, 1⟩,
  ⟨0x4020, 8, 0x14, 1, .domain, .ro, 0, 0, 65536, 1⟩,
  ⟨0x4020, 8, 0x15, 1, .u32, .ro, 0, 0, 4294967295, 1⟩,
  ⟨0x4020, 8, 0x20, 1, .u16, .ro, 0, 0, 65535, 1⟩,
  ⟨0x4100, 24, 0x01, 1, .u8, .ro, 0, 0, 255, 1⟩,
  ⟨0x4100, 24, 0x02, 1, .u8, .ro, 1, 0, 255, 1⟩,
  ⟨0x4100, 24, 0x03, 1, .u32, .ro, 0, 0, 4294967295, 1⟩,
  ⟨0x4100, 24, 0x04, 1, .u32, .ro, 0, 0, 4294967295, 1⟩,
  ⟨0x4100, 24, 0x05, 1, .u16, .ro, 0, 0, 65535, 1⟩,
  ⟨0x4100, 24, 0x06, 1, .u8, .ro, 0, 0, 255, 1⟩,
  ⟨0x4100, 24, 0x07, 1, .u32, .ro, 0, 0, 4294967295, 1⟩,
  ⟨0x4100, 24, 0x08, 1, .u32, .ro, 0, 0, 4294967295, 1⟩,
  ⟨0x4100, 24, 0x10, 1, .u32, .ro, 0, 0, 4294967295, 1⟩,
  ⟨0x4100, 24, 0x11, 1, .u64, .ro, 0, 0, 18446744073709551615, 1⟩,
  ⟨0x4100, 24, 0x12, 1, .u32, .ro, 0, 0, 4294967295, 1⟩,
  ⟨0x4100, 24, 0x13, 1, .u8, .ro, 0, 0, 255, 1⟩]

/-- Objects of the faults areas (Table 14.10). -/
def objects_faults : List ObjRow := [
  ⟨0x4400, 1, 0x01, 1, .u8, .rw, 3, 0, 255, 1⟩,
  ⟨0x4400, 1, 0x02, 1, .u64, .rw, 0, 0, 281474976710655, 1⟩,
  ⟨0x4400, 1, 0x03, 1, .u8, .rw, 1, 0, 63, 1⟩,
  ⟨0x4400, 1, 0x04, 1, .domain, .ro, 0, 0, 65536, 1⟩,
  ⟨0x4400, 1, 0x05, 1, .u16, .wo, 0, 0, 65535, 1⟩,
  ⟨0x4400, 1, 0x06, 1, .u32, .ro, 0, 0, 4294967295, 1⟩,
  ⟨0x4400, 1, 0x07, 1, .u16, .ro, 0, 0, 65535, 1⟩,
  ⟨0x4400, 1, 0x08, 1, .u16, .rw, 10, 1, 1000, 1⟩,
  ⟨0x4401, 1, 0x01, 1, .u8, .ro, 0, 0, 255, 1⟩,
  ⟨0x4401, 1, 0x02, 1, .u8, .ro, 0, 0, 255, 1⟩,
  ⟨0x4401, 1, 0x03, 1, .u32, .ro, 0, 0, 4294967295, 1⟩,
  ⟨0x4401, 1, 0x04, 1, .u16, .ro, 65535, 0, 65535, 1⟩,
  ⟨0x4402, 1, 0x01, 1, .domain, .ro, 0, 0, 65536, 1⟩,
  ⟨0x4402, 1, 0x02, 1, .domain, .ro, 0, 0, 65536, 1⟩,
  ⟨0x4420, 1, 0x01, 1, .u32, .ro, 0, 0, 4294967295, 1⟩,
  ⟨0x4420, 1, 0x02, 1, .u8, .ro, 0, 0, 255, 1⟩]

/-- Objects of the observation areas (Table 14.10). -/
def objects_observation : List ObjRow := [
  ⟨0x4800, 1, 0x01, 1, .u8, .rw, 0, 0, 255, 1⟩,
  ⟨0x4800, 1, 0x02, 1, .u8, .rw, 5, 0, 63, 1⟩,
  ⟨0x4800, 1, 0x03, 1, .bool, .rw, 0, 0, 1, 1⟩,
  ⟨0x4800, 1, 0x08, 1, .domain, .ro, 0, 0, 65536, 1⟩,
  ⟨0x4800, 1, 0x09, 1, .u32, .wo, 0, 0, 4294967295, 1⟩,
  ⟨0x4800, 1, 0x0A, 1, .u32, .ro, 0, 0, 4294967295, 1⟩,
  ⟨0x4800, 1, 0x0B, 1, .u32, .ro, 0, 0, 4294967295, 1⟩,
  ⟨0x4800, 1, 0x20, 1, .i32, .ro, 0, 0, 4294967295, 1⟩,
  ⟨0x4800, 1, 0x21, 1, .u16, .ro, 0, 0, 65535, 1⟩,
  ⟨0x4800, 1, 0x22, 1, .i32, .ro, 2147483647, 0, 4294967295, 1⟩,
  ⟨0x4880, 2, 0x01, 16, .u32, .rw, 0, 0, 4294967295, 1⟩,
  ⟨0x4880, 2, 0x11, 16, .u64, .rw, 0, 0, 281474976710655, 1⟩,
  ⟨0x4880, 2, 0x21, 16, .u64, .rw, 0, 0, 281474976710655, 1⟩,
  ⟨0x4880, 2, 0x31, 1, .u16, .rw, 0, 0, 65535, 1⟩,
  ⟨0x48C0, 24, 0x01, 8, .u32, .rw, 0, 0, 4294967295, 1⟩,
  ⟨0x48C0, 24, 0x11, 8, .u64, .rw, 0, 0, 281474976710655, 1⟩,
  ⟨0x48C0, 24, 0x21, 8, .u64, .rw, 0, 0, 281474976710655, 1⟩,
  ⟨0x48C0, 24, 0x31, 1, .u8, .rw, 0, 0, 255, 1⟩,
  ⟨0x4900, 288, 0x01, 8, .u32, .rw, 0, 0, 4294967295, 1⟩,
  ⟨0x4900, 288, 0x11, 8, .u64, .rw, 0, 0, 281474976710655, 1⟩,
  ⟨0x4900, 288, 0x21, 8, .u64, .rw, 0, 0, 281474976710655, 1⟩,
  ⟨0x4900, 288, 0x31, 1, .u8, .rw, 0, 0, 255, 1⟩,
  ⟨0x4900, 288, 0x40, 1, .u64, .ro, 0, 0, 18446744073709551615, 1⟩,
  ⟨0x4900, 288, 0x41, 1, .u32, .ro, 0, 0, 4294967295, 1⟩,
  ⟨0x4900, 288, 0x42, 1, .u32, .ro, 0, 0, 4294967295, 1⟩,
  ⟨0x4900, 288, 0x43, 1, .u64, .ro, 0, 0, 18446744073709551615, 1⟩,
  ⟨0x4C00, 1, 0x01, 1, .u8, .rw, 0, 0, 2, 1⟩,
  ⟨0x4C00, 1, 0x02, 1, .u64, .rw, 0, 0, 18446744073709551615, 1⟩,
  ⟨0x4C00, 1, 0x03, 1, .u64, .rw, 0, 0, 18446744073709551615, 1⟩,
  ⟨0x4C00, 1, 0x04, 1, .u32, .rw, 0, 0, 4294967295, 1⟩,
  ⟨0x4C00, 1, 0x05, 1, .u32, .rw, 0, 0, 4294967295, 1⟩,
  ⟨0x4C00, 1, 0x06, 1, .u8, .wo, 0, 1, 2, 1⟩,
  ⟨0x4C00, 1, 0x07, 1, .u8, .ro, 0, 0, 255, 1⟩,
  ⟨0x4C00, 1, 0x08, 1, .u8, .rw, 0, 0, 7, 1⟩,
  ⟨0x4C01, 1, 0x01, 1, .domain, .ro, 0, 0, 65536, 1⟩,
  ⟨0x4C01, 1, 0x02, 1, .u32, .ro, 0, 0, 4294967295, 1⟩,
  ⟨0x4C02, 1, 0x01, 1, .domain, .ro, 0, 0, 65536, 1⟩,
  ⟨0x4C02, 1, 0x02, 1, .u32, .ro, 0, 0, 4294967295, 1⟩,
  ⟨0x4C08, 1, 0x01, 1, .domain, .ro, 0, 0, 65536, 1⟩,
  ⟨0x4C08, 1, 0x02, 1, .u64, .ro, 0, 0, 18446744073709551615, 1⟩,
  ⟨0x4C20, 1, 0x01, 1, .u64, .rw, 18446744073709551615, 0, 18446744073709551615, 1⟩,
  ⟨0x4C20, 1, 0x02, 1, .u8, .rw, 0, 0, 7, 1⟩]

/-- Objects of the security areas (Table 14.10). -/
def objects_security : List ObjRow := [
  ⟨0x5000, 1, 0x01, 1, .domain, .const, 0, 0, 65536, 1⟩,
  ⟨0x5000, 1, 0x02, 1, .domain, .const, 0, 0, 65536, 1⟩,
  ⟨0x5000, 1, 0x03, 1, .domain, .const, 0, 0, 65536, 1⟩,
  ⟨0x5010, 1, 0x01, 1, .domain, .wo, 0, 0, 65536, 1⟩,
  ⟨0x5010, 1, 0x02, 1, .domain, .ro, 0, 0, 65536, 1⟩,
  ⟨0x5010, 1, 0x03, 1, .u8, .ro, 0, 0, 255, 1⟩,
  ⟨0x5010, 1, 0x04, 1, .u32, .ro, 0, 0, 4294967295, 1⟩,
  ⟨0x5100, 1, 0x01, 16, .domain, .rw, 0, 0, 65536, 1⟩,
  ⟨0x5100, 1, 0x20, 1, .bool, .rws, 0, 0, 1, 1⟩,
  ⟨0x5120, 1, 0x01, 1, .u64, .rw, 0, 0, 18446744073709551615, 1⟩,
  ⟨0x5120, 1, 0x02, 1, .u8, .wo, 0, 1, 5, 1⟩,
  ⟨0x5120, 1, 0x03, 1, .u8, .rw, 0, 0, 63, 1⟩,
  ⟨0x5120, 1, 0x04, 1, .u32, .rw, 0, 0, 4294967295, 1⟩,
  ⟨0x5120, 1, 0x05, 1, .u32, .rw, 0, 1, 4294967295, 1⟩,
  ⟨0x5120, 1, 0x06, 1, .u64, .rw, 0, 0, 18446744073709551615, 65536⟩,
  ⟨0x5120, 1, 0x07, 1, .u8, .ro, 0, 0, 255, 1⟩,
  ⟨0x5120, 1, 0x08, 1, .u32, .ro, 0, 0, 4294967295, 1⟩,
  ⟨0x5120, 1, 0x0A, 1, .u32, .ro, 0, 0, 4294967295, 1⟩,
  ⟨0x5140, 64, 0x01, 1, .u8, .ro, 0, 0, 255, 1⟩,
  ⟨0x5140, 64, 0x02, 1, .u64, .ro, 0, 0, 18446744073709551615, 1⟩,
  ⟨0x5140, 64, 0x03, 1, .u32, .ro, 0, 0, 4294967295, 1⟩,
  ⟨0x5140, 64, 0x04, 1, .u32, .ro, 0, 0, 4294967295, 1⟩,
  ⟨0x5140, 64, 0x05, 1, .domain, .ro, 0, 0, 65536, 1⟩,
  ⟨0x5140, 64, 0x06, 1, .u64, .ro, 0, 0, 18446744073709551615, 1⟩,
  ⟨0x5140, 64, 0x07, 1, .u8, .ro, 0, 0, 255, 1⟩,
  ⟨0x5140, 64, 0x08, 1, .domain, .ro, 0, 0, 65536, 1⟩,
  ⟨0x5140, 64, 0x09, 1, .u32, .ro, 4294967295, 0, 4294967295, 1⟩,
  ⟨0x5200, 1, 0x01, 1, .u8, .ro, 0, 0, 255, 1⟩,
  ⟨0x5200, 1, 0x02, 1, .u8, .ro, 0, 0, 255, 1⟩,
  ⟨0x5200, 1, 0x03, 1, .u32, .ro, 0, 0, 4294967295, 1⟩,
  ⟨0x5200, 1, 0x04, 1, .u32, .ro, 0, 0, 4294967295, 1⟩,
  ⟨0x5200, 1, 0x05, 1, .u32, .ro, 0, 0, 4294967295, 1⟩,
  ⟨0x5200, 1, 0x06, 1, .u8, .ro, 0, 0, 255, 1⟩,
  ⟨0x5200, 1, 0x07, 1, .bool, .ro, 0, 0, 1, 1⟩,
  ⟨0x5200, 1, 0x08, 1, .domain, .ro, 0, 0, 65536, 1⟩,
  ⟨0x5200, 1, 0x09, 1, .domain, .ro, 0, 0, 65536, 1⟩,
  ⟨0x5200, 1, 0x10, 1, .u32, .rw, 0, 0, 4294967295, 256⟩,
  ⟨0x5200, 1, 0x11, 1, .domain, .wo, 0, 0, 65536, 1⟩,
  ⟨0x5200, 1, 0x12, 1, .u64, .rw, 0, 0, 18446744073709551615, 1⟩,
  ⟨0x5200, 1, 0x13, 1, .u32, .rw, 0, 0, 4294967295, 1⟩,
  ⟨0x5200, 1, 0x14, 1, .u8, .wo, 0, 1, 6, 1⟩,
  ⟨0x5200, 1, 0x15, 1, .u8, .ro, 0, 0, 255, 1⟩,
  ⟨0x5300, 1, 0x01, 1, .u8, .ro, 0, 0, 255, 1⟩,
  ⟨0x5300, 1, 0x02, 1, .u8, .ro, 0, 0, 255, 1⟩,
  ⟨0x5300, 1, 0x03, 1, .u8, .ro, 0, 0, 255, 1⟩,
  ⟨0x5300, 1, 0x04, 1, .u8, .ro, 0, 0, 255, 1⟩]

/-- Objects of the host areas (Table 14.10). -/
def objects_host : List ObjRow := [
  ⟨0x5800, 1, 0x01, 1, .u8, .ro, 0, 0, 255, 1⟩,
  ⟨0x5800, 1, 0x02, 1, .u8, .ro, 0, 0, 255, 1⟩,
  ⟨0x5800, 1, 0x03, 1, .u8, .ro, 0, 0, 255, 1⟩,
  ⟨0x5800, 1, 0x04, 1, .u32, .ro, 0, 0, 4294967295, 1⟩,
  ⟨0x5800, 1, 0x05, 1, .bool, .rw, 0, 0, 1, 1⟩,
  ⟨0x5808, 1, 0x01, 4, .u8, .rw, 0, 0, 63, 1⟩,
  ⟨0x5810, 1, 0x01, 1, .u64, .ro, 0, 0, 18446744073709551615, 1⟩,
  ⟨0x5810, 1, 0x02, 1, .u64, .ro, 0, 0, 18446744073709551615, 1⟩,
  ⟨0x5820, 48, 0x01, 1, .u8, .ro, 0, 0, 255, 1⟩,
  ⟨0x5820, 48, 0x02, 1, .u32, .ro, 0, 0, 4294967295, 1⟩,
  ⟨0x5820, 48, 0x03, 1, .u32, .ro, 0, 0, 4294967295, 1⟩,
  ⟨0x5820, 48, 0x04, 1, .u32, .ro, 0, 0, 4294967295, 1⟩,
  ⟨0x5820, 48, 0x05, 1, .bool, .rw, 0, 0, 1, 1⟩,
  ⟨0x5820, 48, 0x06, 1, .u8, .rw, 0, 0, 63, 1⟩,
  ⟨0x5820, 48, 0x07, 1, .u32, .ro, 0, 0, 4294967295, 1⟩,
  ⟨0x5850, 1, 0x01, 1, .u8, .rws, 0, 0, 3, 1⟩,
  ⟨0x5850, 1, 0x02, 1, .u64, .rws, 0, 0, 281474976710655, 1048576⟩,
  ⟨0x5850, 1, 0x03, 1, .u64, .rws, 0, 0, 68719476736, 1048576⟩,
  ⟨0x5850, 1, 0x04, 1, .u64, .ro, 0, 0, 18446744073709551615, 1⟩,
  ⟨0x5850, 1, 0x05, 1, .u64, .ro, 0, 0, 18446744073709551615, 1⟩,
  ⟨0x5850, 1, 0x06, 1, .u8, .ro, 0, 0, 255, 1⟩,
  ⟨0x5850, 1, 0x07, 1, .u64, .ro, 0, 0, 18446744073709551615, 1⟩,
  ⟨0x5860, 1, 0x01, 1, .u8, .rw, 0, 0, 7, 1⟩,
  ⟨0x5860, 1, 0x02, 1, .u64, .rw, 0, 0, 18446744073709551615, 1⟩,
  ⟨0x5860, 1, 0x03, 1, .u64, .rw, 0, 0, 18446744073709551615, 1⟩,
  ⟨0x5860, 1, 0x04, 1, .u8, .wo, 0, 1, 2, 1⟩,
  ⟨0x5860, 1, 0x05, 1, .u8, .ro, 0, 0, 255, 1⟩,
  ⟨0x5860, 1, 0x06, 1, .u16, .ro, 0, 0, 65535, 1⟩,
  ⟨0x5870, 1, 0x01, 1, .u32, .rw, 0, 0, 4294967295, 1⟩,
  ⟨0x5870, 1, 0x02, 1, .u8, .rw, 0, 0, 7, 1⟩,
  ⟨0x5870, 1, 0x03, 1, .u64, .rw, 0, 0, 18446744073709551615, 1⟩,
  ⟨0x5870, 1, 0x04, 1, .u16, .rw, 0, 0, 65535, 1⟩,
  ⟨0x5870, 1, 0x05, 1, .u8, .rw, 0, 0, 1, 1⟩,
  ⟨0x5870, 1, 0x06, 1, .u8, .wo, 0, 1, 1, 1⟩,
  ⟨0x5870, 1, 0x07, 1, .u8, .ro, 0, 0, 255, 1⟩,
  ⟨0x5870, 1, 0x08, 1, .u64, .ro, 0, 0, 18446744073709551615, 1⟩,
  ⟨0x5870, 1, 0x09, 1, .u32, .ro, 0, 0, 4294967295, 1⟩,
  ⟨0x5880, 1, 0x01, 1, .u64, .rw, 0, 0, 18446744073709551615, 1⟩,
  ⟨0x5880, 1, 0x02, 1, .u32, .rw, 0, 0, 4294967295, 1⟩,
  ⟨0x5880, 1, 0x03, 1, .u32, .rw, 0, 0, 4294967295, 1⟩,
  ⟨0x5880, 1, 0x04, 1, .u64, .rw, 0, 0, 18446744073709551615, 1⟩,
  ⟨0x5880, 1, 0x05, 1, .u8, .wo, 0, 1, 1, 1⟩,
  ⟨0x5880, 1, 0x06, 1, .u8, .ro, 0, 0, 255, 1⟩,
  ⟨0x5890, 1, 0x01, 1, .u64, .rws, 0, 0, 281474976710655, 268435456⟩,
  ⟨0x5890, 1, 0x02, 1, .u64, .rws, 0, 0, 18446744073709551615, 268435456⟩]

/-- The whole dictionary. -/
def objects : List ObjRow :=
  objects_identity ++ objects_roles ++ objects_clocks ++ objects_power ++ objects_cores ++ objects_fabric ++ objects_memory ++ objects_faults ++ objects_observation ++ objects_security ++ objects_host

/-- The key of an object in `State.od` and `State.odb`. -/
def od (index sub : Nat) : Nat := index * 256 + sub

/-- The row that holds an object, none where no object exists (R380). -/
def objRow (id : Nat) : Option ObjRow :=
  objects.find? fun r =>
    r.index ≤ id / 256 && id / 256 < r.index + r.indices && r.sub ≤ id % 256 && id % 256 < r.sub + r.subs

/-- Size in bits of a scalar type. -/
def ObjType.bits : ObjType → Nat
  | .bool => 1
  | .u8 => 8
  | .u16 => 16
  | .u32 => 32
  | .i32 => 32
  | .u64 => 64
  | .str => 0
  | .domain => 0

/-- Size in bytes of a scalar type (Table 14.1). -/
def ObjType.bytes : ObjType → Nat
  | .bool => 1
  | t => t.bits / 8

/-- Is the type STR or DOMAIN? -/
def ObjType.long : ObjType → Bool
  | .str => true
  | .domain => true
  | _ => false

/-- Set points of the board converters in mV (Table 16.1). -/
def setPoint (k : Nat) : Nat :=
  [1800, 1800, 1800, 1800, 1100, 400, 1800, 1100, 400, 1800, 1050, 500, 1200, 750, 1200, 750].getD k 0

/-- The default of a stored scalar object (R358). Defaults that depend on the index are given here:
physical core states (Table 2.2), skip columns, waystation vectors (Table 13.8), host vectors, set points. -/
def objDefault (id : Nat) : Nat :=
  let index := id / 256
  let sub := id % 256
  if id = 0x110001 then 0x024700000000
  else if 0x3400 ≤ index && index < 0x3418 && sub = 0x01 then 12
  else if 0x3400 ≤ index && index < 0x3418 && 0x10 ≤ sub && sub ≤ 0x1C then (if sub = 0x1C then 5 else 1)
  else if 0x5820 ≤ index && index < 0x5850 && sub = 6 then 8 + (index - 0x5820)
  else if index = 0x5808 then [0, 0, 2, 3, 4].getD sub 0
  else if 0x2810 ≤ index && index < 0x2820 && sub = 2 then setPoint (index - 0x2810)
  else if 0x4110 ≤ index && index < 0x4118 && sub = 1 then 1
  else match objRow id with
    | some r => r.dflt
    | none => 0

/-- The default of a stored STR or DOMAIN object (R358). -/
def objDefaultBytes (_id : Nat) : Bytes := []

end Sys2Proof.Machine
end

