-- ==== Sys2Proof/Machine/Ops.lean ====
section
/-! DEFINITION. The named operations over tables, memories, bytes, objects and units of the device. -/

namespace Sys2Proof.Machine

/-- The value at key `k`; `d` is what an unlisted key reads as. -/
def Table.look {α : Type} : Table α → α → Nat → α
  | [], d, _ => d
  | (j, v) :: r, d, k => if j = k then v else Table.look r d k

/-- Insert an entry before the first larger key. -/
def Table.insert {α : Type} : Table α → Nat → α → Table α
  | [], k, v => [(k, v)]
  | (j, w) :: r, k, v => if k < j then (k, v) :: (j, w) :: r else (j, w) :: Table.insert r k v

/-- Remove every entry of a key. -/
def Table.drop {α : Type} : Table α → Nat → Table α
  | [], _ => []
  | (j, w) :: r, k => if j = k then Table.drop r k else (j, w) :: Table.drop r k

/-- Write `v` at key `k`, keeping the canonical form: an entry equal to `d`, what an unlisted key reads
as, is not listed. -/
def Table.put {α : Type} [DecidableEq α] (t : Table α) (d : α) (k : Nat) (v : α) : Table α :=
  if v = d then Table.drop t k else Table.insert (Table.drop t k) k v

/-- The canonical form of a table whose unlisted key k reads as `d k`: keys strictly rising, no entry
equal to its default. `n` bounds the keys from below. -/
def Table.wfFrom {α : Type} [DecidableEq α] (d : Nat → α) : Nat → Table α → Bool
  | _, [] => true
  | n, (j, v) :: r => decide (n ≤ j) && decide (v ≠ d j) && Table.wfFrom d (j + 1) r

/-- The canonical form of a table. -/
def Table.wf {α : Type} [DecidableEq α] (d : Nat → α) (t : Table α) : Bool := Table.wfFrom d 0 t

/-- The canonical form of a memory whose unlisted byte reads as `d`. -/
def Memory.wf (d : Byte) (m : Memory) : Bool := Table.wf (fun _ => d) m

/-- The first n numbers from `a`. -/
def countFrom (a : Nat) : Nat → List Nat
  | 0 => []
  | n + 1 => a :: countFrom (a + 1) n

/-- n bytes of a memory from address `a`, lowest address first; `d` is what an unlisted byte reads as. -/
def Memory.read (m : Memory) (d : Byte) (a n : Nat) : Bytes :=
  (countFrom a n).map (Table.look m d)

/-- Write bytes to a memory from address `a`, lowest address first. -/
def Memory.write (m : Memory) (d : Byte) (a : Nat) : Bytes → Memory
  | [] => m
  | b :: r => Memory.write (Table.put m d a b) d (a + 1) r

/-- The number little-endian bytes stand for (R11). -/
def leNat : Bytes → Nat
  | [] => 0
  | b :: r => b.toNat + 256 * leNat r

/-- The n little-endian bytes of a number (R11). -/
def leBytes (v : Nat) : Nat → Bytes
  | 0 => []
  | n + 1 => BitVec.ofNat 8 v :: leBytes (v / 256) n

/-- The big-endian bytes of a number, as the control ring's Ethernet fields carry them. -/
def beBytes (v n : Nat) : Bytes := (leBytes v n).reverse

/-- The number big-endian bytes stand for. -/
def beNat (b : Bytes) : Nat := leNat b.reverse

/-- n zero bytes. -/
def zeroBytes (n : Nat) : Bytes := List.replicate n 0

/-- The bytes from `i`, n of them; bytes past the end read as 0. -/
def slice (b : Bytes) (i n : Nat) : Bytes :=
  let t := (b.drop i).take n
  t ++ zeroBytes (n - t.length)

/-- The little-endian number in n bytes from `i`. -/
def field (b : Bytes) (i n : Nat) : Nat := leNat (slice b i n)

/-- Bits hi to lo of a number. -/
def bits (v hi lo : Nat) : Nat := v / 2 ^ lo % 2 ^ (hi - lo + 1)

/-- Bit i of a number. -/
def bitAt (v i : Nat) : Bool := v / 2 ^ i % 2 = 1

/-- A number with bit i set. -/
def setBit (v i : Nat) : Nat := v ||| 2 ^ i

/-- A number with bit i clear. -/
def clearBit (v i : Nat) : Nat := if bitAt v i then v - 2 ^ i else v

/-- Bits hi to lo of a number replaced by `x`. -/
def putBits (v hi lo x : Nat) : Nat :=
  v - bits v hi lo * 2 ^ lo + (x % 2 ^ (hi - lo + 1)) * 2 ^ lo

/-- The bits of a number that are 1, least significant first, among the first n. -/
def setBits (v n : Nat) : List Nat := (countFrom 0 n).filter (bitAt v)

/-- How many of the n lowest bits of a number are 1. -/
def popCount (v n : Nat) : Nat := (setBits v n).length

/-- 1 for true, 0 for false. -/
def flag (b : Bool) : Nat := if b then 1 else 0

/-- A b-bit number read as two's complement. -/
def signed (b v : Nat) : Int := if v < 2 ^ (b - 1) then (v : Int) else (v : Int) - (2 : Int) ^ b

/-- An integer modulo 2^b. -/
def wrap (b : Nat) (v : Int) : Nat := (v % (2 : Int) ^ b).toNat

/-- An integer held between two bounds. -/
def clampInt (lo hi v : Int) : Int := max lo (min hi v)

/-- The value of a stored scalar object. -/
def odGet (s : State) (id : Nat) : Nat := Table.look s.od (objDefault id) id

/-- Size in bits that a stored object keeps. -/
def odBits (id : Nat) : Nat := match objRow id with
  | some r => r.type.bits
  | none => 64

/-- Store a scalar object, modulo its type's size (counters wrap). -/
def odSet (s : State) (id v : Nat) : State :=
  { s with od := Table.put s.od (objDefault id) id (v % 2 ^ odBits id) }

/-- Count up an object by n. -/
def odAdd (s : State) (id n : Nat) : State := odSet s id (odGet s id + n)

/-- Store the bytes of a STR or DOMAIN object. -/
def odSetBytes (s : State) (id : Nat) (b : Bytes) : State :=
  { s with odb := Table.put s.odb (objDefaultBytes id) id b }

/-- The bytes of a stored STR or DOMAIN object. -/
def odGetBytes (s : State) (id : Nat) : Bytes := Table.look s.odb (objDefaultBytes id) id

/-- An I32 object's value. -/
def odInt (s : State) (id : Nat) : Int := signed 32 (odGet s id)

/-- Store an I32 object. -/
def odSetInt (s : State) (id : Nat) (v : Int) : State := odSet s id (wrap 32 v)

/-- The 16,320 bytes of the device certificate (R383, Table 15.1). -/
def Fuses.certificateBytes (f : Fuses) : Bytes :=
  [0x47, 0x39, 0x43, 0x01] ++ zeroBytes 4 ++ leBytes f.serial.toNat 8 ++ [f.orderingCode, f.stepping, 0, 0]
    ++ leBytes f.certificate.date.toNat 4 ++ slice f.certificate.deviceKey 0 32 ++ slice f.rootKeyHash 0 8 ++ zeroBytes 32
    ++ slice f.certificate.signature 0 16224

/-- Device state (OD 1001.01, Table 14.9). -/
def deviceState (s : State) : Nat := odGet s (od 0x1001 1)

/-- Codes of the device states (Table 14.9). -/
def stOff : Nat := 0
def stBoot : Nat := 1
def stCalibrating : Nat := 2
def stReady : Nat := 3
def stRunning : Nat := 4
def stStopped : Nat := 5
def stDegraded : Nat := 6
def stFaulted : Nat := 7

/-- An itinerary runs: RUNNING or DEGRADED (R311). -/
def runs (s : State) : Bool := deviceState s = stRunning || deviceState s = stDegraded

/-- Route time: the 64-bit counter (R227). -/
def now (s : State) : Nat := s.time.counter.toNat

/-- Does a die's clock run: its root PLL is locked and it is not held in a per-die reset (R217, R464)? -/
def dieRuns (s : State) (d : Nat) : Bool := bitAt (odGet s (od 0x2420 1)) d && Table.look s.boot.dieReset 0 d = 0

/-- Do the tables of a die move traffic and its cores run stages: its clock runs, and a plan die that a per-die reset has reset has been
reloaded (R218, R226, R465, Table 18.8)? -/
def dieMoves (s : State) (d : Nat) : Bool :=
  dieRuns s d && (2 ≤ d || !(s.boot.resetDies.contains d || s.boot.reloadDies.contains d))

/-- Does the steward's clock run (R218, R463)? The lock loss of Q0 stops it until the PLL has relocked: DESIGN CHOICE (log entry 59),
27,000 ticks later, Table 18.9's bound. -/
def stewardRuns (s : State) : Bool :=
  let t := Table.look s.boot.dieReset 0 2
  t = 0 || t + 27000 ≤ now s + 1

/-- The device's stepping is B0 (R13). -/
def isB0 (s : State) : Bool := s.fuses.stepping = 0xB0

/-- Bytes of one HBM stack (Table 18.2). -/
def stackBytes (s : State) : Nat := s.fuses.stackGiB.toNat * 2 ^ 30

/-- Skip column of a row (R28). -/
def skipColumn (s : State) (row : Nat) : Nat := odGet s (od (0x3400 + row) 1)

/-- Physical core of logical core n (R27, R28). -/
def physOf (s : State) (n : Nat) : Nat :=
  let row := n / 12
  let c := n % 12
  13 * row + (if c < skipColumn s row then c else c + 1)

/-- Logical core that physical core p serves as, none for the reserve (R28). -/
def logicalOf (s : State) (p : Nat) : Option Nat :=
  let row := p / 13
  let c := p % 13
  let f := skipColumn s row
  if c < f then some (12 * row + c) else if c = f then none else some (12 * row + c - 1)

/-- The record of physical core p. -/
def getCore (s : State) (p : Nat) : Core := Table.look s.cores (Core.resetAt p) p

/-- Replace the record of physical core p. -/
def setCore (s : State) (p : Nat) (c : Core) : State :=
  { s with cores := Table.put s.cores (Core.resetAt p) p c }

/-- Change the record of physical core p. -/
def modCore (s : State) (p : Nat) (f : Core → Core) : State := setCore s p (f (getCore s p))

/-- The record of logical core n. -/
def coreOf (s : State) (n : Nat) : Core := getCore s (physOf s n)

/-- Change the record of logical core n. -/
def modCoreOf (s : State) (n : Nat) (f : Core → Core) : State := modCore s (physOf s n) f

/-- All logical cores. -/
def allCores : List Nat := countFrom 0 288

/-- A row's clock. -/
def getRow (s : State) (r : Nat) : RowClock := Table.look s.rows RowClock.reset r

/-- Replace a row's clock. -/
def setRow (s : State) (r : Nat) (c : RowClock) : State :=
  { s with rows := Table.put s.rows RowClock.reset r c }

/-- A link's own end. -/
def getLink (s : State) (l : Nat) : Link := Table.look s.links Link.reset l

/-- Replace a link's own end. -/
def setLink (s : State) (l : Nat) (k : Link) : State :=
  { s with links := Table.put s.links Link.reset l k }

/-- Change a link's own end. -/
def modLink (s : State) (l : Nat) (f : Link → Link) : State := setLink s l (f (getLink s l))

/-- A glaze engine. -/
def getEngine (s : State) (g : Nat) : Engine := Table.look s.engines Engine.reset g

/-- Replace a glaze engine. -/
def setEngine (s : State) (g : Nat) (e : Engine) : State :=
  { s with engines := Table.put s.engines Engine.reset g e }

/-- A context of the context unit. -/
def getContext (s : State) (c : Nat) : Context := Table.look s.ctx.table Context.reset c

/-- Replace a context of the context unit. -/
def setContext (s : State) (c : Nat) (x : Context) : State :=
  { s with ctx := { s.ctx with table := Table.put s.ctx.table Context.reset c x } }

/-- A resident slot's leg. -/
def getLeg (s : State) (k : Nat) : Leg := Table.look s.legs Leg.reset k

/-- Replace a resident slot's leg. -/
def setLeg (s : State) (k : Nat) (l : Leg) : State :=
  { s with legs := Table.put s.legs Leg.reset k l }

/-- The window towards and from one device (R294). -/
def getWindow (s : State) (a : Nat) : Window := Table.look s.fabric.windows Window.reset a

/-- Replace the window of one device. -/
def setWindow (s : State) (a : Nat) (w : Window) : State :=
  { s with fabric := { s.fabric with windows := Table.put s.fabric.windows Window.reset a w } }

/-- A cargo entry. -/
def getCargo (s : State) (e : Nat) : CargoEntry := Table.look s.cargo.entries CargoEntry.reset e

/-- Replace a cargo entry. -/
def setCargo (s : State) (e : Nat) (c : CargoEntry) : State :=
  { s with cargo := { s.cargo with entries := Table.put s.cargo.entries CargoEntry.reset e c } }

/-- A strike history (R303). -/
def getStrikes (s : State) (u : Nat) : Strikes := Table.look s.strikes Strikes.reset u

/-- Replace a strike history. -/
def setStrikes (s : State) (u : Nat) (h : Strikes) : State :=
  { s with strikes := Table.put s.strikes Strikes.reset u h }

/-- Something leaves the device (log entry 3). -/
def emit (s : State) (o : Output) : State := { s with out := o :: s.out }

/-- Apply a change for each element of a list, first to last. -/
def forEach {α σ : Type} (l : List α) (s : σ) (f : σ → α → σ) : σ := l.foldl f s

/-- The slot that runs or is armed (OD 2000.01). -/
def runningSlot (s : State) : Nat := odGet s (od 0x2000 1)

/-- The running leg. -/
def runningLeg (s : State) : Leg := getLeg s (runningSlot s)

/-- Bytes of the running leg's image. -/
def legBytes (s : State) (a n : Nat) : Bytes := Memory.read (runningLeg s).img 0 a n

/-- A little-endian number in a leg's image. -/
def Leg.word (l : Leg) (a n : Nat) : Nat := leNat (Memory.read l.img 0 a n)

/-- A little-endian number in the running leg's image. -/
def legWord (s : State) (a n : Nat) : Nat := (runningLeg s).word a n

end Sys2Proof.Machine
end

