-- ==== Sys2Proof/Machine/Image.lean ====
section
/-! DEFINITION. Reading a leg image: header, section directory, stage schedule, bank images, regions and tables
(Tables 11.2 to 11.4, 19.2, 19.3, 19.5). -/

namespace Sys2Proof.Machine

/-- A directory entry (R469). -/
structure Section where
  kind : Nat
  tag : Nat
  offset : Nat
  length : Nat
  deriving DecidableEq, Repr

/-- The i-th directory entry. -/
def Leg.entry (l : Leg) (i : Nat) : Section :=
  let a := 256 + 32 * i
  { kind := l.word a 2, tag := l.word (a + 2) 1, offset := l.word (a + 8) 8, length := l.word (a + 16) 8 }

/-- The directory: entries up to one of kind 0, 64 at most (log entry 22). -/
def Leg.directoryFrom (l : Leg) (i : Nat) : Nat → List Section
  | 0 => []
  | n + 1 => if (l.entry i).kind = 0 then [] else l.entry i :: l.directoryFrom (i + 1) n

/-- The directory of the image. -/
def Leg.directory (l : Leg) : List Section := l.directoryFrom 0 64

/-- Stepping of the image, after patching (Table 19.2). -/
def Leg.stepping (l : Leg) : Nat := l.word 5 1

/-- The section of a kind that the loader uses: tagged any, or with the image's stepping (R472). -/
def Leg.part (l : Leg) (kind : Nat) : Option Section :=
  l.directory.find? fun e => e.kind = kind && (e.tag = 0 || e.tag = l.stepping)

/-- Offset of a section, 0 where the image has none. -/
def Leg.offsetOf (l : Leg) (kind : Nat) : Nat := match l.part kind with
  | some e => e.offset
  | none => 0

/-- Does the image hold the section? -/
def Leg.has (l : Leg) (kind : Nat) : Bool := (l.part kind).isSome

/-- Role code, context range, and the other header fields (Table 19.2). -/
def Leg.compiledStep (l : Leg) : Nat := l.word 6 1
def Leg.variantMask (l : Leg) : Nat := l.word 7 1
def Leg.role (l : Leg) : Nat := l.word 8 1
def Leg.ownAddress (l : Leg) : Nat := bits (l.word 16 4) 19 0
def Leg.latencyCap (l : Leg) : Nat := l.word 20 4
def Leg.seed (l : Leg) : Nat := l.word 24 8
def Leg.firstContext (l : Leg) : Nat := l.word 132 2
def Leg.contextCount (l : Leg) : Nat := l.word 134 2
def Leg.contextBase (l : Leg) : Nat := l.word 136 8
def Leg.areaBase (l : Leg) : Nat := l.word 144 8
def Leg.slotGroups (l : Leg) : Nat := l.word 152 1
def Leg.balanceSafe (l : Leg) : Nat := l.word 153 1
def Leg.balanceIndex (l : Leg) : Nat := l.word 154 2
def Leg.swapIndex (l : Leg) : Nat := l.word 156 2
def Leg.pointer (l : Leg) (p : Nat) : Nat := l.word (160 + 8 * p) 8
def Leg.itineraryHash (l : Leg) : Bytes := Memory.read l.img 0 32 32
def Leg.legHash (l : Leg) : Bytes := Memory.read l.img 0 64 32
def Leg.footprint (l : Leg) (d : Nat) : Nat := l.word (96 + 8 * d) 8
def Leg.share (l : Leg) (d : Nat) : Nat := l.word (128 + d) 1

/-- A schedule entry (Table 19.5): indexes by step, length and planned rest in ticks. -/
structure ScheduleEntry where
  indexes : List Nat
  length : Nat
  rest : Nat
  deriving DecidableEq, Repr

/-- Number of schedule entries E (R473). -/
def Leg.entries (l : Leg) : Nat := l.word (l.offsetOf 5) 4

/-- The i-th schedule entry. -/
def Leg.scheduleAt (l : Leg) (i : Nat) : ScheduleEntry :=
  let a := l.offsetOf 5 + 16 + 16 * i
  { indexes := [0, 1, 2, 3, 4].map fun k => l.word (a + k) 1
    length := 1024 * l.word (a + 6) 2, rest := 1024 * l.word (a + 8) 2 }

/-- The schedule entry of stage n (R473). -/
def Leg.schedule (l : Leg) (n : Nat) : ScheduleEntry := l.scheduleAt (n % max 1 l.entries)

/-- Stage-table index for a step; 0xFF where the entry holds none. -/
def ScheduleEntry.index (e : ScheduleEntry) (step : Nat) : Nat := e.indexes.getD step 0xFF

/-- Bytes of one core's bank image: bundles, stage table, descriptors (Table 19.3). -/
def bankImageBytes : Nat := 133888

/-- Offset of bank b of logical core n in the image. -/
def Leg.bankOffset (l : Leg) (n b : Nat) : Nat := l.offsetOf 6 + (2 * n + b) * bankImageBytes

/-- A sparse table of n values of `size` bytes each, from an image offset, entered from key k. -/
def readTable {w : Nat} (l : Leg) (size : Nat) : Nat → Nat → Nat → Table (BitVec w)
  | 0, _, _ => []
  | n + 1, a, k =>
    let v : BitVec w := BitVec.ofNat w (l.word a size)
    if v = 0 then readTable l size n (a + size) (k + 1) else (k, v) :: readTable l size n (a + size) (k + 1)

/-- Both banks' bundles of logical core n. -/
def Leg.bundlesOf (l : Leg) (n : Nat) : Table (BitVec 256) :=
  readTable l 32 4096 (l.bankOffset n 0) 0 ++ readTable l 32 4096 (l.bankOffset n 1) 4096

/-- Both banks' stage tables. -/
def Leg.stageTablesOf (l : Leg) (n : Nat) : Table (BitVec 32) :=
  readTable l 4 256 (l.bankOffset n 0 + 131072) 0 ++ readTable l 4 256 (l.bankOffset n 1 + 131072) 256

/-- Both banks' depot descriptors. -/
def Leg.descriptorsOf (l : Leg) (n : Nat) : Table (BitVec 256) :=
  readTable l 32 56 (l.bankOffset n 0 + 132096) 0 ++ readTable l 32 56 (l.bankOffset n 1 + 132096) 56

/-- Region descriptors of logical core n: 64 of 16 bytes. -/
def Leg.regionsOf (l : Leg) (n : Nat) : Table (BitVec 128) := readTable l 16 64 (l.offsetOf 7 + n * 1024) 0

/-- A green region from 16 bytes in the format of OD 4018.02. -/
def readGreen (b : Bytes) : GreenRegion :=
  { base := 4096 * field b 0 5, pages := field b 5 4, back := 4096 * field b 9 5 }

/-- Green regions that the image declares. -/
def Leg.greenRegions (l : Leg) : List GreenRegion :=
  match l.part 9 with
  | none => []
  | some e => (countFrom 0 (min 256 (e.length / 16))).map fun i => readGreen (Memory.read l.img 0 (e.offset + 16 * i) 16)

/-- An entry of 16 bytes of a table section, 0 where the image has no such section. -/
def Leg.tableEntry (l : Leg) (kind i : Nat) : Nat :=
  match l.part kind with
  | none => 0
  | some e => if 16 * i + 16 ≤ e.length then l.word (e.offset + 16 * i) 16 else 0

/-- Numbers of the entries of a block of n, from entry `first` of a table section on, that the image holds: every other entry
reads as 0, not in use. -/
def Leg.heldEntries (l : Leg) (kind first n : Nat) : List Nat :=
  match l.part kind with
  | none => []
  | some e => countFrom 0 (min n (e.length / 16 - first))

/-- Waystation kind that the leg declares. -/
def Leg.declares (l : Leg) (w : Nat) : Nat :=
  match l.part 0xE with
  | none => 0
  | some e => if w < e.length then l.word (e.offset + w) 1 else 0

/-- A link table entry's fields (Table 11.2). -/
structure LinkEntry where
  valid : Bool
  receive : Bool
  detour : Bool
  tail : Nat
  first : Nat
  step : Nat
  count : Nat
  place : Nat
  dst : Nat
  waybill : Nat
  window : Int
  input : Nat
  output : Nat
  engine : Nat
  covered : Nat
  deriving DecidableEq, Repr

/-- Read a link table entry. -/
def readLinkEntry (v : Nat) : LinkEntry :=
  { valid := bitAt v 127, receive := bitAt v 126, detour := bitAt v 125, tail := bits v 124 122
    first := bits v 121 105, step := bits v 104 101 + 1, count := bits v 100 85 + 1, place := bits v 84 59
    dst := bits v 58 39, waybill := bits v 38 29, window := signed 11 (bits v 28 18), input := bits v 17 16
    output := bits v 15 13, engine := bits v 12 8, covered := bits v 7 2 }

/-- Place of a forward or member end: link and entry. -/
def LinkEntry.joinLink (e : LinkEntry) : Nat := bits e.place 25 20
def LinkEntry.joinEntry (e : LinkEntry) : Nat := bits e.place 19 6
/-- Place of a local, deliver or reduce end: logical core and scratchpad address. -/
def LinkEntry.core (e : LinkEntry) : Nat := bits e.place 25 17
def LinkEntry.address (e : LinkEntry) : Nat := 64 * bits e.place 16 0

/-- A mesh stop entry's fields (Table 11.3). -/
structure MeshEntry where
  valid : Bool
  step : Nat
  input : Nat
  output : Nat
  first : Nat
  count : Nat
  address : Nat
  waybill : Nat
  reduce : Bool
  edge : Nat
  engine : Nat
  deriving DecidableEq, Repr

/-- Ports of a mesh stop (Table 11.3). -/
def portNorth : Nat := 0
def portSouth : Nat := 1
def portEast : Nat := 2
def portWest : Nat := 3
def portOwn : Nat := 4
def portEdge : Nat := 5

/-- Read a mesh stop entry. -/
def readMeshEntry (v : Nat) : MeshEntry :=
  { valid := bitAt v 127, step := bits v 126 124, input := bits v 123 121, output := bits v 120 118
    first := bits v 117 98, count := bits v 97 82 + 1, address := 64 * bits v 81 65, waybill := bits v 64 55
    reduce := bits v 54 52 = 1, edge := bits v 51 38, engine := bits v 37 33 }

/-- A die-to-die entry's fields (Table 11.4). -/
structure DieEntry where
  valid : Bool
  receive : Bool
  module : Nat
  first : Nat
  count : Nat
  far : Nat
  row : Nat
  link : Nat
  entry : Nat
  engine : Nat
  deriving DecidableEq, Repr

/-- Read a die-to-die entry. -/
def readDieEntry (v : Nat) : DieEntry :=
  { valid := bitAt v 127, receive := bitAt v 126, module := bits v 125 122, first := bits v 121 105
    count := bits v 104 89 + 1, far := bits v 88 86, row := bits v 85 82, link := bits v 81 76
    entry := bits v 75 62, engine := bits v 61 57 }

/-- An intake point (R340): stage-table index, number, route-time offset, waystation, n_max, reply core, address
and waybill bit. -/
structure IntakePoint where
  index : Nat
  number : Nat
  offset : Nat
  ws : Nat
  most : Nat
  core : Nat
  address : Nat
  waybill : Nat
  deriving DecidableEq, Repr

/-- Read an intake point from 32 bytes. The spec gives the fields and not their places: the model's layout is log
entry 26. -/
def readIntake (b : Bytes) : IntakePoint :=
  { index := field b 0 1, number := field b 1 1, ws := field b 2 1, most := field b 3 1, offset := field b 4 4
    core := field b 8 2, waybill := field b 10 2, address := field b 12 4 }

/-- The image's intake points for a stage-table index, in section order. -/
def Leg.intakePoints (l : Leg) (index : Nat) : List IntakePoint :=
  match l.part 0xD with
  | none => []
  | some e =>
    ((countFrom 0 (e.length / 32)).map fun i => readIntake (Memory.read l.img 0 (e.offset + 32 * i) 32)).filter
      fun p => p.index = index

/-- The running leg's link entry. -/
def linkEntry (s : State) (l e : Nat) : LinkEntry := readLinkEntry ((runningLeg s).tableEntry 0xA (l * 16384 + e))

/-- Number in its section of entry 0 of a mesh stop's table, for the row's skip column (R315). -/
def meshBase (s : State) (row stop : Nat) : Nat := ((row * 13 + skipColumn s row) * 13 + stop) * 4096

/-- The running leg's mesh entry of a stop. -/
def meshEntry (s : State) (row stop e : Nat) : MeshEntry :=
  readMeshEntry ((runningLeg s).tableEntry 0xB (meshBase s row stop + e))

/-- The running leg's die-to-die entry. -/
def dieEntry (s : State) (side e : Nat) : DieEntry := readDieEntry ((runningLeg s).tableEntry 0xC (side * 16384 + e))

/-- Numbers of the entries that the running leg's image holds of a link's, a stop's and a side's table. -/
def linkNumbers (s : State) (l : Nat) : List Nat := (runningLeg s).heldEntries 0xA (l * 16384) 16384
def meshNumbers (s : State) (row stop : Nat) : List Nat := (runningLeg s).heldEntries 0xB (meshBase s row stop) 4096
def dieNumbers (s : State) (side : Nat) : List Nat := (runningLeg s).heldEntries 0xC (side * 16384) 16384

end Sys2Proof.Machine
end

