-- ==== Sys2Proof/Machine/Faults.lean ====
section
/-! DEFINITION. Causes, halts, detections, escalations, interrupts and device states as shared
operations (R79 to R82, R297, R302 to R304, R320 to R323, R345, R369, R378). -/

namespace Sys2Proof.Machine

/-- Bits of the causes field (Table 11.9). -/
def causeHalt : Nat := 0
def causeLate : Nat := 1
def causeSpill : Nat := 2
def causeNonFinite : Nat := 3
def causeHardware : Nat := 4
def causeCapacity : Nat := 5
def causeReset : Nat := 6
def causeStep : Nat := 7
def causeTime : Nat := 8
def causeBooking : Nat := 9
def causeAbsent : Nat := 10
def causeSplit : Nat := 11
def causeUnready : Nat := 12

/-- A cause arises; it counts at the next vote the device forms (R297). -/
def setCause (s : State) (bit : Nat) : State :=
  { s with vote := { s.vote with causes := s.vote.causes ||| BitVec.ofNat 16 (2 ^ bit) } }

/-- A rule that rests on the device's own state stops the domain at the next post (R297). -/
def setStop (s : State) : State := { s with vote := { s.vote with stop := true } }

/-- A post action needs a rest extension of n units (R23). -/
def askExtension (s : State) (n : Nat) : State :=
  { s with vote := { s.vote with ext := max s.vote.ext n } }

/-- Number of the stage that runs, from its start to the start of the next one; all ones where none does: before the first start, after
a stop, and at a device that follows posts without a leg (Tables 14.11, 15.2, 17.7). -/
def stageNumber (s : State) : Nat :=
  match s.stage.phase with
  | .none => 2 ^ 64 - 1
  | .armed => 2 ^ 64 - 1
  | .stage => s.stage.number.toNat
  | .rest => s.stage.number.toNat
  | .voted => if s.vote.follows then 2 ^ 64 - 1 else s.stage.number.toNat
  | .verdict => s.vote.prevNumber.toNat

/-- A frame sent on a ring port; a port without link drops it (R365). -/
def sendFrame (s : State) (port : Bool) (frame : Bytes) : State :=
  if odGet s (od 0x1100 (if port then 4 else 3)) = 0 then s else emit s (.frame port frame)

/-- Pad a frame to 60 bytes before the FCS (R367). -/
def padFrame (b : Bytes) : Bytes := b ++ zeroBytes (60 - b.length)

/-- A GDP header and its data (R367, Table 14.5). -/
def gdpPdu (s : State) (op flags transaction id status segment : Nat) (target : Option Nat) (data : Bytes) : Bytes :=
  [1, BitVec.ofNat 8 op, BitVec.ofNat 8 (odGet s (od 0x1100 8)), BitVec.ofNat 8 flags]
    ++ beBytes transaction 4 ++ beBytes (id / 256) 2 ++ beBytes (id % 256) 1 ++ beBytes status 1
    ++ beBytes data.length 2 ++ beBytes segment 2
    ++ (match target with | some t => beBytes t 4 | none => []) ++ data

/-- A frame that the device sends: `vlan` is empty, or the tag that a request carried (R366, R367). -/
def gdpFrame (s : State) (dest : Nat) (vlan pdu : Bytes) : Bytes :=
  padFrame (beBytes dest 6 ++ beBytes (odGet s (od 0x1100 1)) 6 ++ vlan ++ beBytes (odGet s (od 0x1100 2)) 2 ++ pdu)

/-- An Event frame to the fault manager's station on both ring ports (R369); station 0 leaves the ring
path unused. Its transaction number is free. -/
def sendEvent (s : State) (data : Bytes) : State :=
  let station := odGet s (od 0x4400 2)
  if station = 0 then s
  else
    let frame := gdpFrame s station [] (gdpPdu s 0x09 0 (Config.eventTransaction s.fresh).toNat 0 0 0 none data)
    let s := { s with fresh := s.fresh + 1 }
    sendFrame (sendFrame s false frame) true frame

/-- An MSI-X message leaves through vector v, where the host port is trained (OD 5800.01). -/
def sendMsix (s : State) (v : Nat) : State := if odGet s (od 0x5800 1) = 0 then s else emit s (.msix v)

/-- Interrupt sources (Table 13.5): 0 state changed, 1 escalation queued, 2 load or start finished, 3 copy
finished, 4 replay log, 5 counter overflow, 6 + w waystation w. The source's vector object. -/
def sourceVector (s : State) (source : Nat) : Nat :=
  odGet s (match source with
    | 0 => od 0x5808 1
    | 1 => od 0x4400 3
    | 2 => od 0x5808 2
    | 3 => od 0x5808 3
    | 4 => od 0x5808 4
    | 5 => od 0x4800 2
    | n => od (0x5820 + (n - 6)) 6)

/-- An event of an interrupt source: one message per post; outside a post one message, and further events within 1 ms (1,250,000 ticks) raise
one more when it ends (R345). -/
def raiseSource (s : State) (source : Nat) : State :=
  match s.host.postRaised with
  | some l =>
    if l.contains source then s
    else sendMsix { s with host := { s.host with postRaised := some (source :: l) } } (sourceVector s source)
  | none =>
  if now s < Table.look s.host.windowEnd 0 source then
    { s with host := { s.host with more := Table.put s.host.more false source true } }
  else
    let s := sendMsix s (sourceVector s source)
    { s with host := { s.host with windowEnd := Table.put s.host.windowEnd 0 source (now s + 1250000) } }

/-- The device changes state (R378). -/
def setDeviceState (s : State) (new : Nat) : State :=
  let old := deviceState s
  if old = new then s
  else
    let s := odSet s (od 0x1001 2) old
    let s := odSet s (od 0x1001 1) new
    let s := odAdd s (od 0x1001 3) 1
    let s := odSet s (od 0x1001 4) (now s)
    let s := odSet s (od 0x1001 5) (stageNumber s)
    let s := if bitAt (odGet s (od 0x1100 0x14)) 1 then
        sendEvent s ([2] ++ zeroBytes 7 ++ [BitVec.ofNat 8 new, BitVec.ofNat 8 old] ++ zeroBytes 6 ++ leBytes (now s) 8)
      else s
    raiseSource s 0

/-- Kinds of unit of an escalation record (Table 12.6). -/
def kindDevice : Nat := 0
def kindCore : Nat := 1
def kindRow : Nat := 2
def kindLink : Nat := 3
def kindStack : Nat := 4
def kindLp : Nat := 5
def kindEngine : Nat := 6
def kindMesh : Nat := 7
def kindModule : Nat := 8
def kindDie : Nat := 9
def kindSteward : Nat := 10

/-- The fields of an escalation record (Table 12.6). -/
def escalationRecord (seq cause kind unit state detail stage time logical physical : Nat) : BitVec 256 :=
  BitVec.ofNat 256 (seq % 2 ^ 16 * 2 ^ 240 + cause % 256 * 2 ^ 232 + kind % 16 * 2 ^ 228 + unit % 2 ^ 20 * 2 ^ 208
    + state % 256 * 2 ^ 200 + detail % 256 * 2 ^ 192 + stage % 2 ^ 64 * 2 ^ 128 + time % 2 ^ 64 * 2 ^ 64
    + logical % 2 ^ 20 * 2 ^ 44 + physical % 2 ^ 20 * 2 ^ 24)

/-- Sequence number of a record. -/
def recordSeq (r : BitVec 256) : Nat := bits r.toNat 255 240

/-- Is a record's cause of notice class (Table 12.5)? -/
def recordNotice (r : BitVec 256) : Bool := 0x20 ≤ bits r.toNat 239 232

/-- Remove the oldest notice-class record, none where there is none (R322). -/
def dropNotice : List (BitVec 256) → Option (List (BitVec 256))
  | [] => none
  | r :: rest => if recordNotice r then some rest else (dropNotice rest).map (r :: ·)

/-- The device's physical coordinate (OD 3A00.01). -/
def coordinate (s : State) : Nat := odGet s (od 0x3A00 1)

/-- The device's logical address (OD 3A00.02), 0xFFFF_FFFF for none. -/
def logicalAddress (s : State) : Nat := odGet s (od 0x3A00 2)

/-- Deliver a record on each enabled path (R322, R369). -/
def deliverRecord (s : State) (r : BitVec 256) : State :=
  let paths := odGet s (od 0x4400 1)
  let s := if bitAt paths 0 then sendEvent s ([1] ++ zeroBytes 7 ++ leBytes r.toNat 32) else s
  if bitAt paths 1 then raiseSource s 1 else s

/-- The device escalates: a record enters the queue of 16 and is delivered (R320 to R322). `state` is the
device state after the post. -/
def escalateAs (s : State) (cause kind unit detail state : Nat) : State :=
  let seq := odGet s (od 0x4400 7)
  let r := escalationRecord seq cause kind unit state detail (stageNumber s) (now s) (logicalAddress s) (coordinate s)
  let room := if s.escalations.length < 16 then some s.escalations else dropNotice s.escalations
  match room with
  | none => odAdd s (od 0x4400 6) 1
  | some q =>
    -- the interval of R322 runs from the first delivery of what the queue holds
    let at' := if s.escalations.isEmpty then now s else s.deliveredAt
    deliverRecord (odAdd { s with escalations := q ++ [r], deliveredAt := at' } (od 0x4400 7) 1) r

/-- Escalate with the device state as it now is. -/
def escalate (s : State) (cause kind unit detail : Nat) : State :=
  escalateAs s cause kind unit detail (deviceState s)

/-- The device enters FAULTED (R312). Where it is armed it starts no stage, and it misses its first post (R327). -/
def enterFaulted (s : State) : State :=
  let armed : Bool := s.stage.phase = .armed
  let s := setDeviceState (odSet s (od 0x4401 1) 2) stFaulted
  if armed then { s with stage := { s.stage with phase := .none }, vote := { s.vote with misses := true } } else s

/-- A cause of loss class: the device enters FAULTED, sets stop and escalates (R312, R320). -/
def loseDevice (s : State) (cause kind unit detail : Nat) : State :=
  escalate (enterFaulted (setStop s)) cause kind unit detail

/-- A unit is out of service and the device keeps its layout: it is DEGRADED, not RUNNING (R311). -/
def degrade (s : State) : State :=
  let s := odSet s (od 0x4401 1) (max 1 (odGet s (od 0x4401 1)))
  if deviceState s = stRunning then setDeviceState s stDegraded else s

/-- A cause that the device escalates at its next post (R320, R323). -/
def raiseAtPost (s : State) (cause kind unit detail : Nat) : State :=
  { s with vote := { s.vote with raised := s.vote.raised ++ [(cause, kind, unit, detail)] } }

/-- A loss-class cause that waits for a vote (R306) takes effect at once where none comes, as the device has stopped, and as CALIBRATING
begins. -/
def settleLoss (s : State) : State :=
  if runs s || !s.vote.loss then s
  else
    let raised := s.vote.lossRaised
    let s := enterFaulted { s with vote := { s.vote with loss := false, lossRaised := [] } }
    raised.foldl (fun s r => escalate s r.1 r.2.1 r.2.2.1 r.2.2.2) s

/-- A rule of stop class stops the domain at the next post, and the device escalates it there (R320). -/
def stopAtPost (s : State) (cause kind unit detail : Nat) : State := raiseAtPost (setStop s) cause kind unit detail

/-- A loss-class fault (R306, R312): while an itinerary runs, at the post of the next vote that the device forms; else at
once. A device that is FAULTED already escalates (R320). DESIGN CHOICE (log entry 60): BOOT does not lead to FAULTED (Table 14.9), so
that a cause that arises in BOOT takes effect as CALIBRATING begins. -/
def raiseLoss (s : State) (cause kind unit detail : Nat) : State :=
  let noted := { s with vote := { s.vote with loss := true, lossRaised := s.vote.lossRaised ++ [(cause, kind, unit, detail)] } }
  if runs s then setStop noted
  else if deviceState s = stFaulted then escalate s cause kind unit detail
  else if deviceState s = stBoot then noted
  else loseDevice s cause kind unit detail

/-- Key of a unit that scores strikes. -/
def unitKey (kind unit : Nat) : Nat := kind * 65536 + unit

/-- A detected hardware error is attributed to one unit at a site (R302, R304). -/
def detect (s : State) (kind unit site : Nat) : State :=
  let h := getStrikes s (unitKey kind unit)
  setStrikes s (unitKey kind unit) { h with
    sites := h.sites ++ [site]
    first := if h.history = 0 && h.sites.isEmpty then now s else h.first }

/-- A detected hardware error that makes the stage foul (Table 11.9, bit 4). -/
def detectFoul (s : State) (kind unit site : Nat) : State := setCause (detect s kind unit site) causeHardware

/-- Detection sites (R304), kept apart by what they name. -/
def siteWord (address : Nat) : Nat := 0x100000000 + address / 8
def siteBundle (bank : Bool) (address : Nat) : Nat := 0x200000000 + flag bank * 65536 + address
def siteStageEntry (bank : Bool) (index : Nat) : Nat := 0x300000000 + flag bank * 65536 + index
def siteLine (line : Nat) : Nat := 0x1000000000000 + line
def siteCode (code : Nat) : Nat := code

/-- The halt record (Table 3.13). -/
def haltRecord (h : HaltInfo) (interlock : Bool) : Nat :=
  h.code % 256 * 2 ^ 56 + h.slot % 8 * 2 ^ 53 + flag h.bank * 2 ^ 52 + h.address % 4096 * 2 ^ 40
    + flag h.shadow * 2 ^ 39 + flag interlock * 2 ^ 38 + h.cycle % 2 ^ 32

/-- Is a code a detected hardware error (Table 3.14)? -/
def hardwareCode (code : Nat) : Bool := 0xA0 ≤ code && code ≤ 0xBF

/-- The running leg's mode is interlock mode (R51, OD 211s.03). -/
def interlockMode (s : State) : Bool := odGet s (od (0x2110 + runningSlot s) 3) = 2

/-- The site and the unit a hardware halt is charged to: 0xA6 is charged to who marked the codeword (R305),
every other to the core (Table 12.1). `site` is the site where the code alone is not it. -/
def chargeHalt (s : State) (p : Nat) (h : HaltInfo) (site : Option Nat) : State :=
  if !hardwareCode h.code then s
  else if h.code = 0xA6 then setCause s causeHardware
  else detectFoul s kindCore p (site.getD (siteCode h.code))

/-- Does R81 put a fault with code `new` before one of the same cycle with code `old`: a detected hardware error first, else
the lower code? -/
def faultBefore (new old : Nat) : Bool :=
  if hardwareCode new = hardwareCode old then new < old else hardwareCode new

/-- The slots of a bundle that issued in this cycle are not retired, as the core halts in it: all six of the cycle are wasted
(Table 17.5). -/
def Core.unretire (c : Core) : Core :=
  if c.issued ≠ c.cycle + 1 then c
  else
    let less (t : Table Nat) : Table Nat :=
      (setBits c.lastSlots 6).foldl (fun t i => Table.put t 0 i (Table.look t 0 i - 1)) t
    match c.region with
    | some g => if g.resolved then { c with retiredSlots := less c.retiredSlots } else { c with region := some { g with slots := less g.slots } }
    | none => { c with retiredSlots := less c.retiredSlots }

/-- Logical core n halts (R79, R80): the core enters HALTED, the record is that of the stage's first halt, and of two in one
cycle that which R81 puts first; the device votes foul with cause halt. A later hardware error of the stage is counted against
its unit and leaves the record. Halts that are still to be detected stay: they count where their cycle comes (R79). -/
def takeHaltAt (s : State) (n : Nat) (h : HaltInfo) (site : Option Nat) : State :=
  let p := physOf s n
  let c := getCore s p
  let s := chargeHalt s p h site
  let s := setCause s causeHalt
  let record := odGet s (od (0x3000 + n) 0x10)
  if c.haltTaken then
    if record % 2 ^ 32 = h.cycle % 2 ^ 32 && faultBefore h.code (bits record 63 56) then
      odSet s (od (0x3000 + n) 0x10) (haltRecord h (interlockMode s))
    else s
  else
    let s := if (1 ≤ h.code && h.code ≤ 0x7F) || h.code = 0x81 then
        { s with vote := { s.vote with halted := true } } else s
    let s := setCore s p { c.unretire with state := .halted, haltTaken := true, stall := none }
    let s := odSet s (od (0x3000 + n) 0x10) (haltRecord h (interlockMode s))
    let s := odSet s (od (0x3000 + n) 0x11) (stageNumber s)
    let s := odSet s (od (0x3000 + n) 0x12) (now s)
    odAdd s (od (0x3000 + n) 0x13) 1

/-- A halt whose detection site is its code. -/
def takeHalt (s : State) (n : Nat) (h : HaltInfo) : State := takeHaltAt s n h none

/-- A halt not tied to a slot: code, at the core's bundle address and cycle, slot 7. -/
def slot7Halt (s : State) (n : Nat) (code : Nat) : State :=
  let c := coreOf s n
  takeHalt s n { code := code, slot := 7, bank := c.bank, address := c.pc, shadow := false, cycle := c.cycle }

/-- Record lateness cycles of logical core n (R434), whose bundle at `address` waits: total, stage, and the first-wait
record of Table 17.9. -/
def addLatenessAt (s : State) (n cycles cause resource address : Nat) : State :=
  let c := coreOf s n
  let i := 0x4900 + n
  let s := odAdd s (od i 0x40) cycles
  let s := odAdd s (od i 0x41) cycles
  if odGet s (od i 0x43) = 0 && 0 < cycles then
    odSet s (od i 0x43) (cause % 256 * 2 ^ 56 + resource % 1024 * 2 ^ 46 + flag c.bank * 2 ^ 44
      + address % 4096 * 2 ^ 32 + c.cycle % 2 ^ 32)
  else s

/-- Lateness of the bundle at logical core n's address. -/
def addLateness (s : State) (n cycles cause resource : Nat) : State :=
  addLatenessAt s n cycles cause resource (coreOf s n).pc

/-- The spill flags and causes of a spill (R104 to R106, Table 4.5). -/
def noteSpill (s : State) (nonFinite : Bool) : State :=
  let s := setCause (odSet s (od 0x2040 2) 1) causeSpill
  if nonFinite then setCause (odSet s (od 0x2040 3) 1) causeNonFinite else s

end Sys2Proof.Machine
end

