-- ==== Sys2Proof/Machine/Region.lean ====
section
/-! DEFINITION. Power regions: voltages and regulators, steps and dividers, throttling and the thermal hold
(R219 to R222, R241 to R244, R406 to R415, R484). -/

namespace Sys2Proof.Machine

/-- Region of row 12 d + r (Table 9.2). -/
def rowRegion (row : Nat) : Nat := 14 * (row / 12) + row % 12

/-- Is region r a row region? -/
def isRowRegion (r : Nat) : Bool := r < 28 && r % 14 < 12

/-- Row of a row region. -/
def regionRow (r : Nat) : Nat := 12 * (r / 14) + r % 14

/-- The 31 regions and the 24 rows. -/
def allRegions : List Nat := countFrom 0 31
def allRows : List Nat := countFrom 0 24

/-- Die of a region (Table 9.2): 0 P0, 1 P1, 2 Q0, 3 Q1. -/
def regionDie (r : Nat) : Nat := if r < 14 then 0 else if r < 28 then 1 else if r = 30 then 3 else 2

/-- Object indexes of a region: clock, power, ageing. -/
def regionClock (r : Nat) : Nat := 0x2440 + r
def regionPower (r : Nat) : Nat := 0x2840 + r
def regionAge (r : Nat) : Nat := 0x2C40 + r

/-- The step at which a row's clock runs (OD 24rr.01). -/
def rowStep (s : State) (row : Nat) : Nat := odGet s (od (regionClock (rowRegion row)) 1)

/-- Set a row's running step. -/
def setRowStep (s : State) (row step : Nat) : State := odSet s (od (regionClock (rowRegion row)) 1) step

/-- The device step (OD 2410.02), the pending step (0xFF none). -/
def deviceStep (s : State) : Nat := odGet s (od 0x2410 2)
def pendingStep (s : State) : Nat := odGet s (od 0x2410 8)

/-- Nominal voltage of a step in mV (Table 16.2). -/
def stepVoltage (step : Nat) : Nat := ([800, 770, 745, 715, 680] : List Nat).getD step 680

/-- Is a region out of service: its regulator in fault, or a crossing failed (Table 12.1)? -/
def regionFailed (s : State) (r : Nat) : Bool :=
  odGet s (od (regionPower r) 4) = 3 || odGet s (od (regionClock r) 4) = 1

/-- The step whose nominal voltage a row region takes (R407). -/
def voltageStep (s : State) : Nat :=
  if pendingStep s < deviceStep s then pendingStep s else deviceStep s

/-- Nominal voltage of region r at a row step. -/
def nominal (r step : Nat) : Nat := if isRowRegion r then stepVoltage step else if r = 29 then 745 else 800

/-- Ageing offset of region r in mV (OD 2Crr.01). -/
def ageOffset (s : State) (r : Nat) : Int := odInt s (od (regionAge r) 1)

/-- Target of region r before R408. -/
def plainTarget (s : State) (r : Nat) : Nat := ((nominal r (voltageStep s) : Int) + ageOffset s r).toNat

/-- The regions that R222 pairs with region r. -/
def neighbours (r : Nat) : List Nat :=
  if 28 ≤ r then []
  else
    let d := r / 14 * 14
    let k := r % 14
    if k < 12 then
      (if k = 0 then [] else [r - 1]) ++ (if k = 11 then [] else [r + 1]) ++ [d + 12, d + 13]
    else countFrom d 12

/-- One pass of R408 over a list of targets, region 0 first: the lower of two paired regions is raised to lie at
most 150 mV below the other. -/
def raiseTargets (t : List Nat) : List Nat :=
  (countFrom 0 t.length).map fun r => (neighbours r).foldl (fun v q => max v (t.getD q 0 - 150)) (t.getD r 0)

/-- n passes. -/
def raisePasses : Nat → List Nat → List Nat
  | 0, t => t
  | n + 1, t => raisePasses n (raiseTargets t)

/-- The regulators' targets (R406 to R408). -/
def regionTargets (s : State) : List Nat := raisePasses 16 (allRegions.map (plainTarget s))

/-- Give every regulator its target; one whose target changes ramps (R406). -/
def giveTargets (s : State) : State :=
  let t := regionTargets s
  allRegions.foldl (fun s r =>
    let id := od (regionPower r) 1
    let state := od (regionPower r) 4
    if odGet s id = t.getD r 0 then s
    else
      let s := odSet s id (t.getD r 0)
      if odGet s state = 2 then odSet s state 1 else s) s

/-- New targets: at once, but in a rest when the next stage starts, after the dividers have switched (R241). -/
def setTargets (s : State) : State :=
  if s.stage.phase = .rest || s.stage.phase = .voted || s.stage.phase = .verdict then
    { s with power := { s.power with targetsDue := true } }
  else giveTargets s

/-- The targets that a rest has put off. -/
def giveDueTargets (s : State) : State :=
  if s.power.targetsDue then giveTargets { s with power := { s.power with targetsDue := false } } else s

/-- FIFO depth of same-step crossing x of die d at a step, as its last calibration has it (R223, R242). -/
def crossingDepth (s : State) (d x step : Nat) : Nat :=
  2 + (Config.crossingDepth (Table.look s.boot.calibrations 0 d) x step).toNat

/-- The crossings of a die are calibrated at every step (R223). -/
def calibrateDie (s : State) (d : Nat) : State :=
  { s with
    boot := { s.boot with calibrations := Table.put s.boot.calibrations 0 d (s.fresh + 1) }
    fresh := s.fresh + 1 }

/-- Region r's regulator is at its target (R406). -/
def settleRegulator (s : State) (r : Nat) : State :=
  if odGet s (od (regionPower r) 4) ≠ 1 then s
  else odSet (odSet s (od (regionPower r) 2) (odGet s (od (regionPower r) 1))) (od (regionPower r) 4) 2

/-- Has every row region's regulator in service settled (R241)? -/
def rampsFinished (s : State) : Bool :=
  allRows.all fun row => regionFailed s (rowRegion row) || odGet s (od (regionPower (rowRegion row)) 4) ≠ 1

/-- Bit k of a variant mask: does the leg hold a variant for step k (R220, R474)? -/
def Leg.variant (l : Leg) (k : Nat) : Bool := bitAt l.variantMask k

/-- The smallest variant step of a leg at or above the required one (R220). -/
def Leg.variantFrom (l : Leg) (required : Nat) : Option Nat :=
  (countFrom 0 5).find? fun k => required ≤ k && l.variant k

/-- s_req of R220 with a given floor and throttle step. -/
def requiredStep (s : State) (floor throttle : Nat) : Nat := max s.power.target (max floor throttle)

/-- Floor of the device: the slowest floor of a row region in service (OD 2410.04). -/
def noteFloor (s : State) : State :=
  odSet s (od 0x2410 4) (allRows.foldl (fun m row =>
    if regionFailed s (rowRegion row) then m else max m (odGet s (od (regionClock (rowRegion row)) 2))) 0)

/-- The device takes step v from the next stage on (R220, R241): counted where it changes. The rows' dividers switch
with DIVIDER_SWITCH. -/
def takeStep (s : State) (v : Nat) : State :=
  let s := if v = deviceStep s then s else odAdd s (od 0x2410 7) 1
  setTargets (odSet (odSet s (od 0x2410 2) v) (od 0x2410 8) 0xFF)

/-- Prepare a change to variant step v: a faster one ramps first (R241). -/
def prepareStep (s : State) (v : Nat) : State :=
  if v < deviceStep s then setTargets (odSet s (od 0x2410 8) v) else setTargets (odSet s (od 0x2410 8) 0xFF)

/-- R220 and R241 at action 5: the flag says whether the device step changed. -/
def applyStep (s : State) : State × Bool :=
  match (runningLeg s).variantFrom (requiredStep s (odGet s (od 0x2410 4)) (odGet s (od 0x2410 5))) with
  | none => (s, false)
  | some v =>
    if v < deviceStep s then
      if pendingStep s = v && rampsFinished s then (takeStep s v, true) else (prepareStep s v, false)
    else (takeStep s v, v ≠ deviceStep s)

/-- Every row switches to the device step, or where it is to start the next stage throttled to one step slower (R242, R484): its
clock is held low for 16 ticks, and its same-step crossings take the depth of the new step. -/
def switchDividers (s : State) : State :=
  allRows.foldl (fun s row =>
    let c := getRow s row
    let step := if c.carry then min 4 (deviceStep s + 1) else deviceStep s
    if rowStep s row = step then s else setRowStep (setRow s row { c with phase := 0, low := 16 }) row step) s

/-- Stop every row clock (R413, R484). -/
def stopRows (s : State) : State :=
  allRows.foldl (fun s row => setRow s row { getRow s row with stopped := true }) s

/-- Start every row clock again. -/
def startRows (s : State) : State :=
  allRows.foldl (fun s row => setRow s row { getRow s row with stopped := false, phase := 0 }) s

/-- The thermal hold (R413): row clocks stop, and the device votes foul with cause late. -/
def enterHold (s : State) : State :=
  if s.power.hold then s
  else
    let s := odAdd s (od 0x2800 7) 1
    setCause (stopRows { s with power := { s.power with hold := true, restless := true } }) causeLate

/-- Counts of a row's trip (R484). -/
def countTrip (s : State) (row : Nat) : State :=
  let s := odAdd s (od 0x2410 6) 1
  let s := odAdd s (od (regionPower (rowRegion row)) 7) 1
  { s with power := { s.power with restless := true } }

/-- A row's clock drops one step (R243). -/
def dropRow (s : State) (row : Nat) (carry : Bool) : State :=
  let c := getRow s row
  let s := setRow s row { c with tripped := true, carry := c.carry || carry, phase := 0 }
  setRowStep (odSet s (od (regionClock (rowRegion row)) 3) 1) row (rowStep s row + 1)

/-- The steward sets the throttle step (OD 2410.05). -/
def setThrottle (s : State) (v : Nat) : State :=
  let s := if v = odGet s (od 0x2410 5) then s else odSet s (od 0x2800 8) 0
  odSet { s with power := { s.power with restoreBase := now s } } (od 0x2410 5) v

/-- A row region's trip: thermal, of a neighbour's difference, or of the power limit (R243, R411, R484). -/
def tripRow (s : State) (row : Nat) : State :=
  let c := getRow s row
  let s := countTrip s row
  let again := rowStep s row ≥ 4
  if !runs s then
    if c.tripped || again then setThrottle (stopRows { s with power := { s.power with hold := true } }) 4
    else
      let s := dropRow s row false
      setThrottle s (max (odGet s (od 0x2410 5)) (rowStep s row))
  else if s.stage.phase = .verdict then
    if c.carry || again then enterHold s else dropRow s row true
  else if c.tripped || again then enterHold s
  else dropRow s row false

/-- The throttle step at action 5 (R244, R411 to R413): the slowest step of a throttled row, 4 after a hold, and one
step slower for each raise that is due. -/
def throttleAtPost (s : State) : Nat :=
  let t := odGet s (od 0x2410 5)
  let t := allRows.foldl (fun m row => if (getRow s row).tripped then max m (rowStep s row) else m) t
  let t := if s.power.hold then 4 else t
  let t := if s.power.raiseDue then min 4 (t + 1) else t
  if s.power.thermalRaise then min 4 (t + 1) else t

/-- Is the restore condition met by the post that ends now (R415)? `below` says that the 1 s average lies below 90 %
of the sustained limit. -/
def calmPost (s : State) (fair : Bool) : Bool :=
  fair && !s.power.restless && 10 * odGet s (od 0x2800 4) < 9 * odGet s (od 0x2800 3)

/-- The throttle part of action 5 (R244, R411, R413, R415). It takes the hold: one that is entered after it counts for the next post. -/
def applyThrottle (s : State) (fair : Bool) : State :=
  let t := throttleAtPost s
  let calm := calmPost s fair
  let s := if s.power.raiseDue then odAdd s (od 0x2800 6) 1 else s
  let s := { s with power := { s.power with raiseDue := false, thermalRaise := false, restless := false, hold := false } }
  if t ≠ odGet s (od 0x2410 5) then setThrottle s t
  else
    let n := if calm then min 64 (odGet s (od 0x2800 8) + 1) else 0
    if n = 64 && 0 < t then setThrottle s (t - 1) else odSet s (od 0x2800 8) n

end Sys2Proof.Machine
end

