-- ==== Sys2Proof/Machine/Crossing.lean ====
section
/-! DEFINITION. The way of a consignment's flits through the mesh, as its crossings between regions bear on a wait (R219, R223, R224,
R285). -/

namespace Sys2Proof.Machine

/-- The die-to-die side at a mesh edge stop of a plan die: west and east (log entry 23). -/
def edgeSide (row stop : Nat) : Option Nat :=
  if stop = 0 then some (if row < 12 then 2 else 1) else if stop = 12 then some (if row < 12 then 0 else 4) else none

/-- The other end of a die-to-die side (log entry 23). -/
def farSide (side : Nat) : Nat := if side % 2 = 0 then side + 1 else side - 1

/-- The stop whose out port feeds an in port of a stop of a plan die, with that out port (Table 11.3). -/
def feeder (row stop input : Nat) : Option (Nat × Nat × Nat) :=
  if input = portNorth && row % 12 ≠ 0 then some (row - 1, stop, portSouth)
  else if input = portSouth && row % 12 ≠ 11 then some (row + 1, stop, portNorth)
  else if input = portEast && stop ≠ 12 then some (row, stop + 1, portWest)
  else if input = portWest && stop ≠ 0 then some (row, stop - 1, portEast)
  else none

/-- The entries of a stop in the variant that runs. -/
def runningMesh (s : State) (row stop : Nat) : List MeshEntry :=
  ((meshNumbers s row stop).map (meshEntry s row stop)).filter fun e => e.valid && e.step = odGet s (od 0x2410 3)

/-- The entry whose flits a stop's entry takes at its in port from the stop beside it: the last that starts before it, with its stop. -/
def feederEntry (s : State) (row stop : Nat) (e : MeshEntry) : Option (Nat × Nat × MeshEntry) :=
  (feeder row stop e.input).bind fun (r, q, out) =>
    (((runningMesh s r q).filter fun x => x.output = out && x.first < e.first).foldl (fun m x => match m with
      | none => some x
      | some y => if y.first < x.first then some x else m) none).map fun x => (r, q, x)

/-- Does the way of an entry's flits cross between regions at different steps, n hops back at most: from a row at another step, or
between a row that is not at S0 and the die's edge, on this plan die or the other (R219, R223, R224)? -/
def pathCrosses (s : State) : Nat → Nat → Nat → MeshEntry → Bool
  | 0, _, _, _ => false
  | n + 1, row, stop, e =>
    if e.input = portEdge then
      rowStep s row ≠ 0 || (edgeSide row stop).any fun side =>
        (countFrom 0 24).any fun r => (countFrom 0 13).any fun q =>
          edgeSide r q = some (farSide side) && (runningMesh s r q).any fun x =>
            x.output = portEdge && x.edge = e.edge && (rowStep s r ≠ 0 || pathCrosses s n r q x)
    else match feederEntry s row stop e with
      | some (r, q, x) => rowStep s r ≠ rowStep s row || pathCrosses s n r q x
      | none => false

end Sys2Proof.Machine
end

