-- ==== Sys2Proof/Machine/Codes.lean ====
section
/-! DEFINITION. Check codes: the Reed-Solomon code of the data paths and bales (R144, R145, R251), and the CRC-64
of fingerprints (R440). -/

namespace Sys2Proof.Machine

/-- Multiply by alpha in GF(2^8) under x^8 + x^4 + x^3 + x^2 + 1 (R144). -/
def gfDouble (a : Byte) : Byte := if a.getLsbD 7 then (a <<< 1) ^^^ 0x1D else a <<< 1

/-- Horner form of the product: the highest bit of b first. -/
def gfHorner (a b : Byte) (acc : Byte) : Nat → Byte
  | 0 => acc
  | n + 1 => gfHorner a b (gfDouble acc ^^^ (if b.getLsbD n then a else 0)) n

/-- Product in GF(2^8). -/
def gfMul (a b : Byte) : Byte := gfHorner a b 0 8

/-- alpha^n. -/
def gfExp : Nat → Byte
  | 0 => 1
  | n + 1 => gfDouble (gfExp n)

/-- Coefficients of g(x) = (x + 1)(x + a)(x + a^2)(x + a^3) below x^4, highest first (R144). -/
def rsGenerator : List Byte := [0x0F, 0x36, 0x78, 0x40]

/-- One step of the division: the register, highest first, after one more data byte. -/
def rsStep (r : List Byte) (d : Byte) : List Byte :=
  let f := d ^^^ r.headD 0
  List.zipWith (fun g c => gfMul f g ^^^ c) rsGenerator (r.drop 1 ++ [0])

/-- The check bytes c3, c2, c1, c0 of data d0, d1, ... (R144, Table 10.2). -/
def rsCheck (data : Bytes) : Bytes := data.foldl rsStep [0, 0, 0, 0]

/-- The word's value at alpha^i, first byte the highest coefficient. -/
def rsEval (word : Bytes) (i : Nat) : Byte :=
  let x := gfExp i
  word.foldl (fun acc b => gfMul acc x ^^^ b) 0

/-- Syndromes S0 to S3. -/
def rsSyndromes (word : Bytes) : List Byte := [rsEval word 0, rsEval word 1, rsEval word 2, rsEval word 3]

/-- What a decoder makes of a word (R145). -/
inductive RsResult where
  | clean
  | corrected (word : Bytes)
  | uncorrectable
  deriving DecidableEq, Repr

/-- Position counted from the last byte at which one wrong byte explains the syndromes, among the first n. -/
def rsLocate (s0 s1 s2 s3 : Byte) : Nat → Byte → Nat → Option Nat
  | 0, _, _ => none
  | n + 1, x, i =>
    if gfMul s0 x = s1 && gfMul s1 x = s2 && gfMul s2 x = s3 then some i else rsLocate s0 s1 s2 s3 n (gfDouble x) (i + 1)

/-- Decode a word: one wrong byte is corrected, any other non-zero syndrome is uncorrectable (R145). -/
def rsDecode (word : Bytes) : RsResult :=
  match rsSyndromes word with
  | [s0, s1, s2, s3] =>
    if s0 = 0 && s1 = 0 && s2 = 0 && s3 = 0 then .clean
    else if s0 = 0 then .uncorrectable
    else match rsLocate s0 s1 s2 s3 word.length 1 0 with
      | some i =>
        let p := word.length - 1 - i
        .corrected (word.take p ++ [word.getD p 0 ^^^ s0] ++ word.drop (p + 1))
      | none => .uncorrectable
  | _ => .uncorrectable

/-- One bit enters the CRC-8 register under x^8 + x^5 + x^3 + x^2 + x + 1 (R124). -/
def crc8Bit (r : Byte) (b : Bool) : Byte := if r.getLsbD 7 != b then (r <<< 1) ^^^ 0x2F else r <<< 1

/-- The 8 check bits of a 64-bit word, register 0 at the start (R124). DESIGN CHOICE (log entry 60): bit 63 enters first; R124 gives no
order. -/
def crc8 (w : BitVec 64) : Byte := (countFrom 0 64).foldl (fun r i => crc8Bit r (w.getLsbD (63 - i))) 0

/-- n steps of the CRC-64 register (R440). -/
def crc64Bits : Nat → BitVec 64 → BitVec 64
  | 0, c => c
  | n + 1, c => crc64Bits n (if c.getLsbD 63 then (c <<< 1) ^^^ 0x42F0E1EBA9EA3693#64 else c <<< 1)

/-- The CRC-64 of bytes (R440). -/
def crc64 (b : Bytes) : BitVec 64 :=
  b.foldl (fun c x => crc64Bits 8 (c ^^^ (BitVec.setWidth 64 x <<< (56 : Nat)))) 0

/-- A write of the stage adds its term to the fingerprint (R440). -/
def addTerm (s : State) (b : Bytes) : State :=
  { s with observe := { s.observe with fingerprint := s.observe.fingerprint + crc64 b } }

end Sys2Proof.Machine
end

