-- ==== Sys2Proof/Machine/Counters.lean ====
section
/-! DEFINITION. Observation counters and their overflow (R424 to R431). -/

namespace Sys2Proof.Machine

/-- A counter's block and place: object index and number k in it. Counters are numbered as in Table 17.7. -/
structure CounterPlace where
  index : Nat
  k : Nat
  deriving DecidableEq, Repr

/-- Place of a counter by its number (Table 17.7). -/
def counterPlace (i : Nat) : CounterPlace :=
  if i < 0x900 then ⟨0x4900 + i / 8, i % 8⟩
  else if i < 0x920 then ⟨0x4880 + (i - 0x900) / 16, (i - 0x900) % 16⟩
  else ⟨0x48C0 + (i - 0x920) / 8, (i - 0x920) % 8⟩

/-- Configuration, value, reload and overflow-flags objects of a counter. -/
def CounterPlace.config (p : CounterPlace) : Nat := od p.index (1 + p.k)
def CounterPlace.value (p : CounterPlace) : Nat := od p.index (0x11 + p.k)
def CounterPlace.reload (p : CounterPlace) : Nat := od p.index (0x21 + p.k)
def CounterPlace.flags (p : CounterPlace) : Nat := od p.index 0x31

/-- Numbers of the first counter of a block: logical core, port die, engine. -/
def coreCounters (n : Nat) : Nat := 8 * n
def portCounters (d : Nat) : Nat := 0x900 + 16 * d
def engineCounters (g : Nat) : Nat := 0x920 + 8 * g

/-- Fields of a configuration word (Table 17.2). -/
def cfgEnable (w : Nat) : Bool := bitAt w 31
def cfgAction (w : Nat) : Nat := bits w 30 29
def cfgMode (w : Nat) : Nat := bits w 26 24
def cfgThreshold (w : Nat) : Nat := bits w 23 16
def cfgEvent (w : Nat) : Nat := bits w 15 8
def cfgQualifier (w : Nat) : Nat := bits w 7 0

/-- Number of the counter that a configuration object belongs to, none for another object. -/
def counterOfConfig (id : Nat) : Option Nat :=
  let index := id / 256
  let sub := id % 256
  if 0x4900 ≤ index && index < 0x4A20 && 1 ≤ sub && sub ≤ 8 then some (8 * (index - 0x4900) + sub - 1)
  else if 0x4880 ≤ index && index < 0x4882 && 1 ≤ sub && sub ≤ 16 then some (0x900 + 16 * (index - 0x4880) + sub - 1)
  else if 0x48C0 ≤ index && index < 0x48D8 && 1 ≤ sub && sub ≤ 8 then some (0x920 + 8 * (index - 0x48C0) + sub - 1)
  else none

/-- The enabled counters with their configuration words. -/
def enabledCounters (s : State) : List (Nat × Nat) :=
  s.od.filterMap fun e => match counterOfConfig e.1 with
    | some i => if cfgEnable e.2 then some (i, e.2) else none
    | none => none

/-- Is the configuration word legal for the counter's block (R425, R426, Table 17.4)? -/
def configLegal (i w : Nat) : Bool :=
  let e := cfgEvent w
  let q := cfgQualifier w
  let link := 0x20 ≤ e && e ≤ 0x28
  let blockOk :=
    if e = 0 then true
    else if i < 0x900 then 1 ≤ e && e ≤ 0x12
    else if i < 0x920 then 0x20 ≤ e && e ≤ 0x29
    else 0x40 ≤ e && e ≤ 0x49
  cfgMode w ≤ 4 && blockOk && !((e = 1 || e = 2) && cfgMode w ≠ 0)
    && (if 1 ≤ e && e ≤ 5 then q < 64 else if link then q < 24 || q = 0xFF else q = 0)

/-- Code of a core state (Table 2.4). -/
def CoreState.code : CoreState → Nat
  | .off => 0
  | .idle => 1
  | .running => 2
  | .atPost => 3
  | .halted => 4
  | .standby => 5
  | .retired => 6

/-- Route time and stage of a sample (Table 17.7). -/
def sampleBytes (s : State) (i : Nat) : Bytes :=
  let seq := odGet s (od 0x4800 0x0B)
  let core := i < 0x900
  let c := coreOf s (i / 8)
  leBytes seq 4 ++ leBytes i 2 ++ [if core then BitVec.ofNat 8 c.state.code
    else 0xFF] ++ [0] ++ leBytes (now s) 8 ++ leBytes (stageNumber s) 8
    ++ leBytes (if core then c.cycle else now s - s.stage.start) 4
    ++ leBytes (if core then c.lastBundle else 0xFFFF) 2 ++ zeroBytes 2

/-- A sample is appended to the buffer of 2,048, or dropped and counted (R431). -/
def takeSample (s : State) (i : Nat) : State :=
  if 2048 ≤ s.observe.samples.length then odAdd s (od 0x4800 0x0A) 1
  else
    let b := sampleBytes s i
    odAdd { s with observe := { s.observe with samples := s.observe.samples ++ [b] } } (od 0x4800 0x0B) 1

/-- An overflow raises the counter vector, at most one message in 65,536 ticks (R430). -/
def overflowMessage (s : State) : State :=
  if now s < s.observe.overflowEnd then { s with observe := { s.observe with overflowMore := true } }
  else
    let s := sendMsix s (sourceVector s 5)
    { s with observe := { s.observe with overflowEnd := now s + 65536 } }

/-- The action of a counter's overflow, for each of n overflows (R430). -/
def overflowActions (s : State) (i action : Nat) : Nat → State
  | 0 => s
  | n + 1 =>
    let s := if action = 2 || action = 3 then takeSample s i else s
    overflowActions (if action = 1 || action = 3 then overflowMessage s else s) i action n

/-- A count passes 2^48 - 1: the counter loads its reload value, counts on from it what lies beyond, and so each time that it passes
again; it sets its flag and takes its action (R424, R430). -/
def overflowCounter (s : State) (i beyond : Nat) : State :=
  let p := counterPlace i
  let reload := odGet s p.reload % 2 ^ 48
  let s := odSet s p.value (reload + beyond % (2 ^ 48 - reload))
  let s := odSet s p.flags (setBit (odGet s p.flags) p.k)
  overflowActions s i (cfgAction (odGet s p.config)) (beyond / (2 ^ 48 - reload) + 1)

/-- Add to a counter's value. -/
def addCount (s : State) (i n : Nat) : State :=
  let p := counterPlace i
  let v := odGet s p.value % 2 ^ 48 + n
  if v < 2 ^ 48 then odSet s p.value v else overflowCounter s i (v - 2 ^ 48)

/-- What a counter adds in a cycle in which its event has value v (R426, Table 17.3). -/
def countOf (w v : Nat) (wasAbove : Bool) : Nat :=
  let v := min v 255
  let t := cfgThreshold w
  match cfgMode w with
  | 0 => v
  | 1 => if t < v then 1 else 0
  | 2 => if v = t then 1 else 0
  | 3 => if v < t then 1 else 0
  | 4 => if t < v && !wasAbove then 1 else 0
  | _ => 0

/-- One cycle of a counter's clock, with its event's value; a frozen device's counters hold (R427). -/
def countCycle (s : State) (i w v : Nat) : State :=
  let n := countOf w v (Table.look s.observe.above false i)
  let above := Table.put s.observe.above false i (decide (cfgThreshold w < min v 255))
  let s := { s with observe := { s.observe with above := above } }
  if n = 0 || odGet s (od 0x4800 3) = 1 then s else addCount s i n

/-- What a block's counters that do not count have gathered and seen goes: a counter that is enabled starts anew, as with a value that
was not above its threshold (log entry 60). -/
def forgetDisabled (s : State) (first count : Nat) : State :=
  let live := (enabledCounters s).map Prod.fst
  let keep (i : Nat) : Bool := i < first || first + count ≤ i || live.contains i
  { s with observe := { s.observe with
    accum := s.observe.accum.filter fun x => keep x.1, above := s.observe.above.filter fun x => keep x.1 } }

/-- Something that the counters of block `first` to `first + count - 1` may count happens n times in this
cycle: event e, on link l of the die for link events. -/
def noteEvent (s : State) (first count e n : Nat) (link : Option Nat) : State :=
  (enabledCounters s).foldl (fun s iw =>
    let q := cfgQualifier iw.2
    let linkOk := match link with
      | none => true
      | some l => q = 0xFF || q = l
    if first ≤ iw.1 && iw.1 < first + count && cfgEvent iw.2 = e && linkOk then
      let acc := Table.put s.observe.accum 0 iw.1 (Table.look s.observe.accum 0 iw.1 + n)
      { s with observe := { s.observe with accum := acc } }
    else s) s

/-- An event of logical core n. -/
def coreEvent (s : State) (n e k : Nat) : State := noteEvent s (coreCounters n) 8 e k none

/-- An event of a link: the link's die counts it with the link's number in the die. -/
def linkEvent (s : State) (l e k : Nat) : State := noteEvent s (portCounters (l / 24)) 16 e k (some (l % 24))

/-- An event of engine g. -/
def engineEvent (s : State) (g e k : Nat) : State := noteEvent s (engineCounters g) 8 e k none

/-- n lines are served at the controller of interface g, for a plan request or for another user (Table 17.4). -/
def noteLines (s : State) (g n : Nat) (plan : Bool) : State :=
  engineEvent (if plan then engineEvent s g 0x47 n else s) g 0x48 n

/-- Take what a counter has gathered in the cycle that ends, up to a limit: what lies beyond it falls in the cycles that follow. -/
def takeAccum (s : State) (i limit : Nat) : State × Nat :=
  let all := Table.look s.observe.accum 0 i
  let v := min all limit
  ({ s with observe := { s.observe with accum := Table.put s.observe.accum 0 i (all - v) } }, v)

/-- The most that an engine event shows in a tick of what a request has done at once: the lines that the interface moves in a tick at
full rate (Table 6.4), one page scored, one cycle of a refresh. DESIGN CHOICE (log entry 60). -/
def eventPace (g e : Nat) : Nat :=
  if e = 0x43 || e = 0x44 || e = 0x47 || e = 0x48 then (if g < 16 then 15 else 1) else 1

/-- Zeros in place of a block whose die is held in reset (R438). -/
def ofDie (s : State) (d : Nat) (b : Bytes) : Bytes := if Table.look s.boot.dieReset 0 d ≠ 0 then zeroBytes b.length else b

/-- Values of n counters from counter i, 8 bytes each: bits [63:48] are zero (R432). -/
def counterValue (s : State) (i : Nat) : Nat := odGet s (counterPlace i).value % 2 ^ 48
def counterValues (s : State) (i n : Nat) : Bytes := (countFrom i n).flatMap fun j => leBytes (counterValue s j) 8

/-- A core's record of a snapshot (Table 17.10). -/
def tallyCore (s : State) (n : Nat) : Bytes :=
  let c := coreOf s n
  ofDie s (n / 144) ([BitVec.ofNat 8 c.state.code, BitVec.ofNat 8 (flag c.bank)] ++ leBytes (c.lastBundle % 4096) 2
    ++ leBytes c.cycle 4 ++ leBytes (odGet s (od (0x4900 + n) 0x41)) 4 ++ zeroBytes 4
    ++ leBytes (odGet s (od (0x4900 + n) 0x43)) 8 ++ zeroBytes 8 ++ counterValues s (8 * n) 8)

/-- A cycle of logical core n ends: a snapshot that awaits the core takes its record in the first cycle that began at or after the
trigger (R437). -/
def latchCore (s : State) (n : Nat) : State :=
  match Table.look s.observe.latching 0 n with
  | 0 => s
  | 1 =>
    let b := odGetBytes s s.observe.latchInto
    let s := { s with observe := { s.observe with latching := Table.put s.observe.latching 0 n 0 } }
    odSetBytes s s.observe.latchInto (b.take (64 + 96 * n) ++ tallyCore s n ++ b.drop (160 + 96 * n))
  | k + 1 => { s with observe := { s.observe with latching := Table.put s.observe.latching 0 n k } }

end Sys2Proof.Machine
end

