-- ==== Sys2Proof/Machine/Memory.lean ====
section
/-! DEFINITION. External memory: the device-physical map, green pages, uncorrectable lines, the context
region and sealed ranges as they bear on an access (R139 to R148, R163 to R167, R198 to R201, R389). -/

namespace Sys2Proof.Machine

/-- One GiB. -/
def gib : Nat := 2 ^ 30

/-- Local share of die d in bytes: 0 P0, 1 P1, 2 Q0, 3 Q1 (R143, OD 401x.01). -/
def localShare (s : State) (d : Nat) : Nat := odGet s (od (0x4010 + d) 1) * gib

/-- Usable bytes of LPDDR5X interface i (OD 402i.03); the window of a port die with a mismatch holds no memory (R140). -/
def lpUsable (s : State) (i : Nat) : Nat := if odGet s (od (0x4020 + i) 2) = 3 then 0 else odGet s (od (0x4020 + i) 3) * gib

/-- Where an address lies: interface 0 to 23, offset in it, and the window's number (Table 6.2). -/
structure Place where
  iface : Nat
  offset : Nat
  window : Nat
  deriving DecidableEq, Repr

/-- The place of an interleaved address: n interfaces from `first`, each of `cap` bytes less a local share. -/
def interleaved (n first window o filled : Nat) : Option Place :=
  if o < filled then
    let u := o / 4096
    some ⟨first + u % n, u / n * 4096 + o % 4096, window⟩
  else none

/-- Is engine g failed, so that its local window is not served (R194)? DESIGN CHOICE (log entry 57): an access to such a window finds
it unmapped. -/
def windowFailed (s : State) (g : Nat) : Bool := odGet s (od (0x4100 + g) 2) = 2

/-- The place of a device-physical address, none where it is unmapped (R141, R142). -/
def locate (s : State) (a : Nat) : Option Place :=
  let c := stackBytes s
  if a < 0x8000000000 then interleaved 8 0 0 a (8 * (c - localShare s 0))
  else if a < 0x10000000000 then interleaved 8 8 1 (a - 0x8000000000) (8 * (c - localShare s 1))
  else if a < 0x14000000000 then
    interleaved 4 16 2 (a - 0x10000000000) (4 * (lpUsable s 0 - localShare s 2))
  else if a < 0x18000000000 then
    interleaved 4 20 3 (a - 0x14000000000) (4 * (lpUsable s 4 - localShare s 3))
  else if 0x20000000000 ≤ a && a < 0x30000000000 then
    let k := (a - 0x20000000000) / 0x1000000000
    let o := a % 0x1000000000
    let share := localShare s (k / 8)
    if o < share && !windowFailed s k then some ⟨k, c - share + o, 4 + k⟩ else none
  else if 0x30000000000 ≤ a && a < 0x38000000000 then
    let i := (a - 0x30000000000) / 0x1000000000
    let o := a % 0x1000000000
    let share := localShare s (2 + i / 4)
    if o < share && !windowFailed s (16 + i) then some ⟨16 + i, lpUsable s i - share + o, 20 + i⟩ else none
  else none

/-- Key of a byte in `ExtMem.cells`: its interface and the offset in it. -/
def Place.key (p : Place) : Nat := p.iface * 2 ^ 40 + p.offset

/-- The 64 bytes of the line that holds address a; zero where it is unmapped. -/
def extLine (s : State) (a : Nat) : Bytes :=
  match locate s (a / 64 * 64) with
  | some p => Memory.read s.ext.cells 0 p.key 64
  | none => zeroBytes 64

/-- n bytes from device-physical address a, as the frames hold them. -/
def extBytes (s : State) (a n : Nat) : Bytes :=
  if n = 0 then []
  else slice ((countFrom (a / 64) ((a + n - 1) / 64 + 1 - a / 64)).flatMap fun l => extLine s (64 * l)) (a % 64) n

/-- A little-endian number of n bytes at address a. -/
def extWord (s : State) (a n : Nat) : Nat := leNat (extBytes s a n)

/-- The bytes of a line that lie from lo to hi - 1, as a mask. -/
def byteMask (lo hi : Nat) : Nat := 2 ^ hi - 2 ^ lo

/-- Write the part of `b`, placed at a, that falls in one line. An uncorrectable codeword is gone once its 32 bytes have been written
again, at once or in parts: DEDUCED (log entry 60) from R340, where a host's writes of a slot by R339 clear the error. -/
def extWriteLine (s : State) (a : Nat) (b : Bytes) (line : Nat) : State :=
  match locate s (64 * line) with
  | none => s
  | some p =>
    let lo := max a (64 * line)
    let hi := min (a + b.length) (64 * line + 64)
    let cells := Memory.write s.ext.cells 0 (p.key + (lo - 64 * line)) (slice b (lo - a) (hi - lo))
    let mask := Table.look s.ext.rewritten 0 line ||| byteMask (lo - 64 * line) (hi - 64 * line)
    let half := flag (Table.look s.ext.badHalf false line)
    if Table.look s.ext.bad 0 line = 0 then { s with ext := { s.ext with cells := cells } }
    else if bits mask (32 * half + 31) (32 * half) = 2 ^ 32 - 1 then
      { s with ext := { s.ext with
        cells := cells, bad := Table.put s.ext.bad 0 line 0, badHalf := Table.put s.ext.badHalf false line false
        rewritten := Table.put s.ext.rewritten 0 line 0 } }
    else { s with ext := { s.ext with cells := cells, rewritten := Table.put s.ext.rewritten 0 line mask } }

/-- Write bytes from address a to the frames; what is unmapped is not written. -/
def extWrite (s : State) (a : Nat) (b : Bytes) : State :=
  if b.length = 0 then s
  else (countFrom (a / 64) ((a + b.length - 1) / 64 + 1 - a / 64)).foldl (fun s l => extWriteLine s a b l) s

/-- Are n bytes from a all mapped, in one window? -/
def mappedRange (s : State) (a n : Nat) : Bool :=
  match locate s a, locate s (a + n - 1) with
  | some p, some q => p.window = q.window
  | _, _ => false

/-- The green region whose first frames hold an address (R163). -/
def greenAt (s : State) (a : Nat) : Option GreenRegion :=
  s.ext.green.find? fun g => g.base ≤ a && a < g.base + 4096 * g.pages

/-- Does any byte of a range lie in a back range (R163)? -/
def touchesBack (s : State) (a n : Nat) : Bool :=
  s.ext.green.any fun g => n ≠ 0 && g.pages ≠ 0 && a < g.back + 4096 * g.pages && g.back < a + n

/-- Does any byte of a range lie in a green page or a back range? -/
def touchesGreen (s : State) (a n : Nat) : Bool :=
  touchesBack s a n || s.ext.green.any fun g => n ≠ 0 && g.pages ≠ 0 && a < g.base + 4096 * g.pages && g.base < a + n

/-- Can a unit other than the green pages' controller address all bytes of a range, in one window (R152, R163)? -/
def addressable (s : State) (a n : Nat) : Bool := mappedRange s a n && !touchesBack s a n

/-- Epoch bit of a green page, by the number of its first frame's page. -/
def pageEpoch (s : State) (page : Nat) : Bool := Table.look s.ext.epoch false page

/-- Address of a green byte in its fired frame. -/
def firedFrame (s : State) (g : GreenRegion) (a : Nat) : Nat :=
  if pageEpoch s (a / 4096) then g.back + (a - g.base) else a

/-- Address of a green byte in its working frame. -/
def workingFrame (s : State) (g : GreenRegion) (a : Nat) : Nat :=
  if pageEpoch s (a / 4096) then a else g.back + (a - g.base)

/-- Base of the context region (OD 2008.01). -/
def contextBase (s : State) : Nat := odGet s (od 0x2008 1)

/-- The context region exists while an itinerary is resident (R198). -/
def contextRegion (s : State) : Bool := odGet s (od 0x2000 2) ≠ 0

/-- The entry whose frame 0 holds an address (R198). -/
def contextOf (s : State) (a : Nat) : Option Nat :=
  let b := contextBase s
  if contextRegion s && b ≤ a && a < b + 0x40000 then some ((a - b) / 64) else none

/-- Ranges of the context region that are unmapped under R152 (R198). -/
def touchesContextHole (s : State) (a n : Nat) : Bool :=
  let b := contextBase s
  let meets (x m : Nat) : Bool := n ≠ 0 && a < x + m && x < a + n
  contextRegion s && (meets (b + 0x40000) 0x40000 || meets (b + 0x80200) 0xE00)

/-- Does a range touch the pointer block (R198)? -/
def touchesPointers (s : State) (a n : Nat) : Bool :=
  let b := contextBase s
  contextRegion s && n ≠ 0 && a < b + 0x80200 && b + 0x80000 < a + n

/-- Address of an entry's frame. -/
def contextFrame (s : State) (c : Nat) (frame : Bool) : Nat :=
  contextBase s + (if frame then 0x40000 else 0) + 64 * c

/-- Address that a read by any unit goes to: the fired frame of a green page or a context entry (R164, R200). -/
def readFrame (s : State) (a : Nat) : Nat :=
  match greenAt s a with
  | some g => firedFrame s g a
  | none =>
    match contextOf s a with
    | some c => contextFrame s c (getContext s c).epoch + a % 64
    | none => a

/-- A context entry after reset: slot 127, every other field 0 (Table 8.2). -/
def entryReset : Bytes := leBytes (127 * 2 ^ 458) 64

/-- Does the line of address a belong to a context entry that has not fired yet (R199)? -/
def entryUnfired (s : State) (a : Nat) : Bool := match greenAt s a, contextOf s a with
  | none, some c => !(getContext s c).entered
  | _, _ => false

/-- The line a read returns. -/
def readExtLine (s : State) (a : Nat) : Bytes := if entryUnfired s a then entryReset else extLine s (readFrame s a)

/-- n bytes as a read by any unit returns them. -/
def readExt (s : State) (a n : Nat) : Bytes :=
  if n = 0 then []
  else slice ((countFrom (a / 64) ((a + n - 1) / 64 + 1 - a / 64)).flatMap fun l => readExtLine s (64 * l)) (a % 64) n

/-- Syndrome of a line that holds an uncorrectable codeword, 0 for none. -/
def lineBad (s : State) (a : Nat) : BitVec 32 := Table.look s.ext.bad 0 (readFrame s a / 64)

/-- The first line of a range, as read, that holds an uncorrectable codeword. -/
def firstBad (s : State) (a n : Nat) : Option Nat :=
  if n = 0 then none
  else ((countFrom (a / 64) ((a + n - 1) / 64 + 1 - a / 64)).map (64 * ·)).find? fun l => lineBad s l ≠ 0

/-- The 36 bytes of codeword `half` of the line at an address, as stored (R144): its data and their check bytes, or, where it is
uncorrectable, bytes that the spec does not give (log entry 19). -/
def codeword (s : State) (a : Nat) (half : Bool) : Bytes :=
  let line := a / 64
  if Table.look s.ext.bad 0 line ≠ 0 && Table.look s.ext.badHalf false line = half then
    (countFrom 0 36).map (Config.storedByte line (flag half))
  else
    let data := slice (extLine s a) (32 * flag half) 32
    data ++ rsCheck data

/-- Where data offset o of an LPDDR5X interface lies in its raw storage (R148): the block of 512 bytes, and the byte in it. -/
def rawPlace (o : Nat) : Nat × Nat := (o / 448, o % 448)

/-- The device-physical address of data offset o of LPDDR5X interface i, the inverse of R141's and R142's maps: the interleaved part
lies below the local share. -/
def lpAddress (s : State) (i o : Nat) : Nat :=
  let share := localShare s (2 + (i - 16) / 4)
  let open' := lpUsable s (i - 16) - share
  if o < open' then 0x10000000000 + (i - 16) / 4 * 0x4000000000 + (o / 4096 * 4 + i % 4) * 4096 + o % 4096
  else 0x30000000000 + (i - 16) * 0x1000000000 + (o - open')

/-- The 512 raw bytes of block k of LPDDR5X interface i (R148): its 448 data bytes, the check bytes of their 14 codewords, and 8 bytes
of zero. -/
def rawBlock (s : State) (i k : Nat) : Bytes :=
  let words := (countFrom 0 7).flatMap fun j =>
    let a := lpAddress s i (448 * k + 64 * j)
    [codeword s a false, codeword s a true]
  words.flatMap (·.take 32) ++ words.flatMap (·.drop 32) ++ zeroBytes 8

/-- Object index of an interface (Table 6.7). -/
def ifaceIndex (i : Nat) : Nat := if i < 16 then 0x4000 + i else 0x4020 + (i - 16)

/-- Kind and unit of an interface in Table 12.6. -/
def ifaceKind (i : Nat) : Nat := if i < 16 then kindStack else kindLp
def ifaceUnit (i : Nat) : Nat := if i < 16 then i else i - 16

/-- Segments of a cargo entry as (destination, pages) (R385). -/
def segments : Nat → Bytes → List (Nat × Nat)
  | 0, _ => []
  | n + 1, b => (field b 0 6, field b 8 4) :: segments n (b.drop 16)

/-- Segments of an entry. -/
def CargoEntry.segments (e : CargoEntry) : List (Nat × Nat) :=
  Sys2Proof.Machine.segments (e.manifest.length / 16) e.manifest

/-- Page number of an address in a list of segments, counted from `first`. -/
def pageIn (first : Nat) (a : Nat) : List (Nat × Nat) → Option Nat
  | [] => none
  | (d, n) :: r => if d ≤ a && a < d + 65536 * n then some (first + (a - d) / 65536) else pageIn (first + n) a r

/-- Entry states (Table 15.7): open, verified and damaged entries are sealed (R389). -/
def CargoEntry.live (e : CargoEntry) : Bool := e.state ≠ 0

/-- The sealed entries that a range touches, the lowest first (R389). -/
def sealedEntries (s : State) (a n : Nat) : List Nat :=
  (s.cargo.entries.filter fun e => e.2.live &&
    e.2.segments.any fun g => n ≠ 0 && a < g.1 + 65536 * g.2 && g.1 < a + n).map (·.1)

/-- The sealed entry that a range touches (R389). -/
def sealedAt (s : State) (a n : Nat) : Option Nat := (sealedEntries s a n).head?

/-- A steward's write: not applied in a sealed range (Table 15.6). -/
def stewardWrite (s : State) (a : Nat) (b : Bytes) : State := if (sealedAt s a b.length).isSome then s else extWrite s a b

/-- States of a cargo entry (OD 51ee.01). -/
def cargoFree : Nat := 0
def cargoOpenState : Nat := 1
def cargoVerified : Nat := 2
def cargoDamaged : Nat := 3

/-- An entry with an uncorrectable codeword at an address becomes damaged and names its lowest damaged page (R391). -/
def CargoEntry.damage (x : CargoEntry) (a : Nat) : CargoEntry :=
  let page := (pageIn 0 a x.segments).getD 0
  { x with state := cargoDamaged, matched := Table.put x.matched false page false, damaged := min x.damaged page }

/-- An uncorrectable codeword in a sealed range: every entry that it belongs to becomes damaged (R391). -/
def damageCargo (s : State) (a : Nat) : State :=
  (sealedEntries s a 1).foldl (fun s e => setCargo s e ((getCargo s e).damage a)) s

/-- An uncorrectable codeword was read at a line (R146): recorded, listed as bad, to be re-read (R307),
and charged to the interface. `reader` is true for a core's operation or a plan request, whose core halts and makes the
stage foul; every other reader acts as R146 gives and makes no stage foul (Table 12.1, R147, R340). -/
def uncorrectable (s : State) (line : Nat) (syndrome : BitVec 32) (reader : Bool) : State :=
  match locate s line with
  | none => s
  | some p =>
    let i := ifaceIndex p.iface
    let s := odAdd s (od i 0x11) 1
    let s := odSet s (od i 0x12) (line / 64 * 64 + 32 * flag (Table.look s.ext.badHalf false (line / 64)))
    let s := odSet s (od i 0x13) syndrome.toNat
    let list := Table.look s.ext.badLines [] p.iface
    let full := 64 ≤ list.length
    let s := if list.contains line || full then s else
      { s with ext := { s.ext with badLines := Table.put s.ext.badLines [] p.iface (list ++ [line]) } }
    let s := { s with ext := { s.ext with rereads := s.ext.rereads ++ [(line, now s)] } }
    let key := unitKey (ifaceKind p.iface) (ifaceUnit p.iface)
    -- a 65th bad line makes the interface permanent (Table 12.1)
    let s := if full && !list.contains line then setStrikes s key { getStrikes s key with permanent := true } else s
    let s := detect s (ifaceKind p.iface) (ifaceUnit p.iface) (siteLine line)
    let s := if reader then setCause s causeHardware else s
    damageCargo s line

/-- Die of an interface (Table 6.8): 0 P0, 1 P1, 2 Q0, 3 Q1. -/
def ifaceDie (i : Nat) : Nat := if i < 8 then 0 else if i < 16 then 1 else if i < 20 then 2 else 3

/-- Does the die of interface i run, so that its controller and its engine serve (R218, R463, R464)? -/
def memoryRuns (s : State) (i : Nat) : Bool := dieRuns s (ifaceDie i)

/-- The interfaces behind which a range lies. -/
def ifacesOf (s : State) (a n : Nat) : List Nat :=
  if n = 0 then []
  else (countFrom (a / 64) ((a + n - 1) / 64 + 1 - a / 64)).filterMap fun l => (locate s (64 * l)).map (·.iface)

/-- n lines at address a are read or written: the controller serves them (Table 17.4). -/
def noteLinesAt (s : State) (a n : Nat) (plan : Bool) : State :=
  match locate s a with
  | some p => noteLines s p.iface n plan
  | none => s

/-- Plan die that tracks engine g (Table 7.1). -/
def engineDie (g : Nat) : Nat := if g < 8 || (16 ≤ g && g < 20) then 0 else 1

/-- Entries of plan die d that steward copies hold (R159): one for each core of the die that the steward is loading, and one while
it installs a leg, at most 8 (log entry 57). -/
def stewardCopies (s : State) (d : Nat) : Nat :=
  min 8 ((s.stage.reloading.filter fun n => n / 144 = d).length + (if s.host.loading.isSome then 1 else 0))

/-- Tracker entries of plan die d held now (R159). -/
def trackerInUse (s : State) (d : Nat) : Nat :=
  let ofCores := s.cores.foldl (fun t e => if e.1 / 156 = d then t + e.2.depots.length else t) 0
  s.engines.foldl (fun t e => if engineDie e.1 = d then t + e.2.held.length else t) (ofCores + stewardCopies s d)

/-- Keep the trackers' high marks (OD 401x.04). -/
def noteTrackers (s : State) : State :=
  [0, 1].foldl (fun s d =>
    let id := od (0x4010 + d) 4
    let t := trackerInUse s d
    if odGet s id < t then odSet s id t else s) s

/-- Outcome of a write to external memory by a depot or mirror write. -/
inductive WriteResult where
  | applied
  /-- The fired frame's page could not be copied (R146). -/
  | copyFailed
  /-- The touch list is full (R166). -/
  | listFull
  deriving DecidableEq, Repr

/-- Copy a green page's fired frame to its working frame and enter it in its interface's touch list (R164). -/
def touchPage (s : State) (g : GreenRegion) (page : Nat) : State × WriteResult :=
  let a := 4096 * page
  match locate s a with
  | none => (s, .applied)
  | some p =>
    let list := Table.look s.ext.touched [] p.iface
    if list.contains page then (s, .applied)
    else if 4096 ≤ list.length then
      let full := if s.ext.full.contains (ifaceDie p.iface) then s.ext.full else s.ext.full ++ [ifaceDie p.iface]
      (setStop (setCause { s with ext := { s.ext with full := full } } causeCapacity), .listFull)
    else
      match firstBad s a 4096 with
      | some l => (uncorrectable s (readFrame s l) (lineBad s l) true, .copyFailed)
      | none =>
        let s := noteLinesAt (extWrite s (workingFrame s g a) (extBytes s (firedFrame s g a) 4096)) a 128 true
        let i := od (ifaceIndex p.iface) 0x20
        let s := if odGet s i < list.length + 1 then odSet s i (list.length + 1) else s
        ({ s with ext := { s.ext with touched := Table.put s.ext.touched [] p.iface (list ++ [page]) } }, .applied)

/-- A write of bytes inside one line by a depot operation or a mirror write (R164, R167): to the working
frame of a green page, touching it first; elsewhere to the address itself. -/
def stageWrite (s : State) (a : Nat) (b : Bytes) : State × WriteResult :=
  let s := noteLinesAt s a 1 true
  match greenAt s a with
  | none => (extWrite s a b, .applied)
  | some g =>
    match touchPage s g (a / 4096) with
    | (s, .applied) => (extWrite s (workingFrame s g a) b, .applied)
    | (s, r) => (s, r)

/-- Mirror writes of one store, each line on its own (R122). Core n halts with 0xA6, slot 7, where the copy of
a page fails (R146). -/
def mirrorWrites (s : State) (n : Nat) : List (Nat × Bytes) → State
  | [] => s
  | (a, b) :: r =>
    match stageWrite s a b with
    | (s, .copyFailed) => mirrorWrites (slot7Halt s n 0xA6) n r
    | (s, _) => mirrorWrites s n r

/-- Bytes from a split at 64-byte lines. -/
def splitLines (a : Nat) (b : Bytes) : List (Nat × Bytes) :=
  if b.length = 0 then []
  else (countFrom (a / 64) ((a + b.length - 1) / 64 + 1 - a / 64)).map fun l =>
    let lo := max a (64 * l)
    let hi := min (a + b.length) (64 * l + 64)
    (lo, slice b (lo - a) (hi - lo))

end Sys2Proof.Machine
end

