-- ==== Sys2Proof/Machine/Numbers.lean ====
section
/-! DEFINITION. Number formats, rounding, conversions, special functions, CG32 and the ledger (04). -/

namespace Sys2Proof.Machine

/-- An exact value: NaN, an infinity, or (-1)^neg x m x 2^e. The sign of a zero is kept (R84). -/
inductive Num where
  | nan
  | inf (neg : Bool)
  | fin (neg : Bool) (m : Nat) (e : Int)
  deriving DecidableEq, Repr

/-- How a format encodes what is not finite (Table 4.1). -/
inductive NonFinite where
  | ieee | nanOnly | none
  deriving DecidableEq, Repr

/-- A floating-point format (Table 4.1); its bias is 2^(exp-1) - 1. -/
structure FloatFmt where
  exp : Nat
  man : Nat
  kind : NonFinite
  deriving DecidableEq, Repr

def FloatFmt.fp64 : FloatFmt := ⟨11, 52, .ieee⟩
def FloatFmt.fp32 : FloatFmt := ⟨8, 23, .ieee⟩
def FloatFmt.bf16 : FloatFmt := ⟨8, 7, .ieee⟩
def FloatFmt.fp16 : FloatFmt := ⟨5, 10, .ieee⟩
def FloatFmt.e4m3 : FloatFmt := ⟨4, 3, .nanOnly⟩
def FloatFmt.e5m2 : FloatFmt := ⟨5, 2, .ieee⟩
def FloatFmt.e3m2 : FloatFmt := ⟨3, 2, .none⟩
def FloatFmt.e2m3 : FloatFmt := ⟨2, 3, .none⟩
def FloatFmt.e2m1 : FloatFmt := ⟨2, 1, .none⟩

/-- Bits of a number of the format. -/
def FloatFmt.bits (f : FloatFmt) : Nat := 1 + f.exp + f.man

/-- Exponent bias (Table 4.1). -/
def FloatFmt.bias (f : FloatFmt) : Int := 2 ^ (f.exp - 1) - 1

/-- Exponent of the smallest normal number. -/
def FloatFmt.emin (f : FloatFmt) : Int := 1 - f.bias

/-- The largest finite magnitude, as bits without the sign. -/
def FloatFmt.maxBits (f : FloatFmt) : Nat :=
  match f.kind with
  | .ieee => (2 ^ f.exp - 1) * 2 ^ f.man - 1
  | .nanOnly => 2 ^ (f.exp + f.man) - 2
  | .none => 2 ^ (f.exp + f.man) - 1

/-- The canonical NaN (Table 4.2). Formats without a NaN never produce one. -/
def FloatFmt.nanBits (f : FloatFmt) : Nat :=
  match f.kind with
  | .ieee => (2 ^ f.exp - 1) * 2 ^ f.man + 2 ^ (f.man - 1)
  | .nanOnly => 2 ^ (f.exp + f.man) - 1
  | .none => 0

/-- Read the bits of a format (R83, R85). -/
def FloatFmt.read (f : FloatFmt) (v : Nat) : Num :=
  let neg := bitAt v (f.exp + f.man)
  let ef := v / 2 ^ f.man % 2 ^ f.exp
  let mf := v % 2 ^ f.man
  let fin : Num := if ef = 0 then .fin neg mf (f.emin - f.man)
    else .fin neg (2 ^ f.man + mf) ((ef : Int) - f.bias - f.man)
  match f.kind with
  | .ieee => if ef = 2 ^ f.exp - 1 then (if mf = 0 then .inf neg else .nan) else fin
  | .nanOnly => if ef = 2 ^ f.exp - 1 && mf = 2 ^ f.man - 1 then .nan else fin
  | .none => fin

/-- How an operation rounds: to nearest even, or stochastically with the random word r (R90, R95). -/
inductive Rounding where
  | nearest
  | stochastic (r : Nat)
  deriving DecidableEq, Repr

/-- m / 2^sh rounded to an integer. -/
def Rounding.shiftRight (r : Rounding) (m sh : Nat) : Nat :=
  let lo := m / 2 ^ sh
  let rem := m % 2 ^ sh
  match r with
  | .nearest =>
    if 2 * rem < 2 ^ sh then lo
    else if 2 * rem = 2 ^ sh then (if lo % 2 = 0 then lo else lo + 1)
    else lo + 1
  | .stochastic w =>
    let t := rem * 2 ^ 32 / 2 ^ sh
    if 0 < t && 2 ^ 32 - t ≤ w then lo + 1 else lo

/-- m x 2^(e - q) rounded to an integer. -/
def Rounding.scale (r : Rounding) (m : Nat) (e q : Int) : Nat :=
  if q ≤ e then m * 2 ^ (e - q).toNat else r.shiftRight m (q - e).toNat

/-- Sign bit of a format. -/
def FloatFmt.signBits (f : FloatFmt) (neg : Bool) : Nat := if neg then 2 ^ (f.exp + f.man) else 0

/-- The encoding of an infinite input or result (Table 4.3). -/
def FloatFmt.infBits (f : FloatFmt) (neg : Bool) : Nat :=
  match f.kind with
  | .ieee => f.signBits neg + (2 ^ f.exp - 1) * 2 ^ f.man
  | .nanOnly => f.nanBits
  | .none => f.signBits neg + f.maxBits

/-- What a rounded finite magnitude above the largest finite becomes (Table 4.3): an infinity in FP64,
FP32, BF16 and FP16, the largest finite in the formats of fewer bits. -/
def FloatFmt.overflowBits (f : FloatFmt) (neg : Bool) : Nat :=
  if 16 ≤ f.bits then f.infBits neg else f.signBits neg + f.maxBits

/-- Round an exact value once to the format (R90, R91, R95). -/
def FloatFmt.round (f : FloatFmt) (r : Rounding) : Num → Nat
  | .nan => f.nanBits
  | .inf neg => f.infBits neg
  | .fin neg m e =>
    if m = 0 then f.signBits neg
    else
      let top := max (e + Nat.log2 m) f.emin
      let q := top - f.man
      let n := r.scale m e q
      let mag := ((top + f.bias).toNat - 1) * 2 ^ f.man + n
      if f.maxBits < mag then f.overflowBits neg else f.signBits neg + mag

/-- The exact product. -/
def Num.mul : Num → Num → Num
  | .nan, _ => .nan
  | _, .nan => .nan
  | .inf a, .inf b => .inf (a != b)
  | .inf a, .fin b m _ => if m = 0 then .nan else .inf (a != b)
  | .fin a m _, .inf b => if m = 0 then .nan else .inf (a != b)
  | .fin a m e, .fin b n g => .fin (a != b) (m * n) (e + g)

/-- A signed integer from sign and magnitude. -/
def signMag (neg : Bool) (m : Nat) : Int := if neg then -(m : Int) else m

/-- The exact sum; an exact zero has the sign of round-to-nearest-even (R84). -/
def Num.add : Num → Num → Num
  | .nan, _ => .nan
  | _, .nan => .nan
  | .inf a, .inf b => if a = b then .inf a else .nan
  | .inf a, .fin _ _ _ => .inf a
  | .fin _ _ _, .inf b => .inf b
  | .fin a m e, .fin b n g =>
    let q := min e g
    let t := signMag a (m * 2 ^ (e - q).toNat) + signMag b (n * 2 ^ (g - q).toNat)
    if t = 0 then .fin (a && b) 0 q else .fin (decide (t < 0)) t.natAbs q

/-- The value with its sign changed. -/
def Num.neg : Num → Num
  | .nan => .nan
  | .inf a => .inf (!a)
  | .fin a m e => .fin (!a) m e

/-- The value times 2^k. -/
def Num.shift (k : Int) : Num → Num
  | .nan => .nan
  | .inf a => .inf a
  | .fin a m e => .fin a m (e + k)

/-- Is the value finite? -/
def Num.finite : Num → Bool
  | .fin _ _ _ => true
  | _ => false

/-- An integer as an exact value. -/
def Num.ofInt (v : Int) : Num := .fin (decide (v < 0)) v.natAbs 0

/-- Does x come before y in value? False where one is a NaN. -/
def Num.lt : Num → Num → Bool
  | .nan, _ => false
  | _, .nan => false
  | .inf a, .inf b => a && !b
  | .inf a, .fin _ _ _ => a
  | .fin _ _ _, .inf b => !b
  | .fin a m e, .fin b n g =>
    let q := min e g
    decide (signMag a (m * 2 ^ (e - q).toNat) < signMag b (n * 2 ^ (g - q).toNat))

/-- Is a value a NaN? -/
def Num.isNan : Num → Bool
  | .nan => true
  | _ => false

/-- Are two values equal? -0 and +0 are (R36); false where one is a NaN. -/
def Num.eq (x y : Num) : Bool := !x.isNan && !y.isNan && !Num.lt x y && !Num.lt y x

/-- A relation by its code (Table 3.4, SC rel) from "equal", "less" and "greater". -/
def relHolds (rel : Nat) (eq lt gt : Bool) : Bool :=
  match rel with
  | 0 => eq
  | 1 => !eq
  | 2 => lt
  | 3 => lt || eq
  | 4 => gt
  | 5 => gt || eq
  | _ => false

/-- A compare of two values (R36): a NaN gives 1 for ne and 0 for every other relation. -/
def Num.compare (rel : Nat) (x y : Num) : Bool := relHolds rel (Num.eq x y) (Num.lt x y) (Num.lt y x)

/-- The sign of a value; a NaN's is not used. -/
def Num.isNeg : Num → Bool
  | .nan => false
  | .inf a => a
  | .fin a _ _ => a

/-- Minimum under R479. -/
def Num.minimum (x y : Num) : Num :=
  if x.isNan || y.isNan then .nan
  else if Num.lt x y then x
  else if Num.lt y x then y
  else if x.isNeg then x else y

/-- Maximum under R479. -/
def Num.maximum (x y : Num) : Num :=
  if x.isNan || y.isNan then .nan
  else if Num.lt x y then y
  else if Num.lt y x then x
  else if x.isNeg then y else x

/-- The low b bits of an exact value rounded to an integer and saturated to the range of a b-bit
two's-complement integer (R91, Table 4.3). -/
def Num.toInteger (r : Rounding) (b : Nat) : Num → Nat
  | .nan => 0
  | .inf neg => if neg then 2 ^ (b - 1) else 2 ^ (b - 1) - 1
  | .fin neg m e =>
    let v := signMag neg (r.scale m e 0)
    wrap b (clampInt (-(2 ^ (b - 1))) (2 ^ (b - 1) - 1) v)

/-- Lane and storage formats by code (Table 3.3): the floating-point format of an element. -/
def codeFloat : Nat → Option FloatFmt
  | 0x0 => some .fp32
  | 0x1 => some .bf16
  | 0x2 => some .fp16
  | 0x3 => some .e4m3
  | 0x4 => some .e5m2
  | 0x5 => some .e4m3
  | 0x6 => some .e5m2
  | 0x7 => some .e2m3
  | 0x8 => some .e3m2
  | 0x9 => some .e2m1
  | 0xE => some .fp64
  | _ => none

/-- Bits of one element of a format code. -/
def codeBits : Nat → Nat
  | 0x0 => 32
  | 0x1 => 16
  | 0x2 => 16
  | 0x3 => 8
  | 0x4 => 8
  | 0x5 => 8
  | 0x6 => 8
  | 0x7 => 6
  | 0x8 => 6
  | 0x9 => 4
  | 0xA => 8
  | 0xB => 4
  | 0xC => 32
  | 0xD => 16
  | 0xE => 64
  | _ => 0

/-- MX formats, whose elements share a scale in blocks of 32 (R87). -/
def codeMx (c : Nat) : Bool := 0x5 ≤ c && c ≤ 0x9

/-- Integer formats. -/
def codeInteger (c : Nat) : Bool := 0xA ≤ c && c ≤ 0xD

/-- emax of R89. -/
def mxEmax : Nat → Int
  | 0x5 => 8
  | 0x6 => 15
  | 0x7 => 2
  | 0x8 => 4
  | _ => 2

/-- The value of an element's bits in a format code; `scale` is the block's scale byte, 127 for a format
without one (R83, R87, R88). -/
def elementValue (code scale v : Nat) : Num :=
  match codeFloat code with
  | some f =>
    if codeMx code then (if scale = 0xFF then .nan else (f.read v).shift ((scale : Int) - 127))
    else f.read v
  | none => Num.ofInt (signed (codeBits code) (v % 2 ^ codeBits code))

/-- The bits of a value converted to a format code that is no MX format (R91). -/
def convertTo (r : Rounding) (code : Nat) (x : Num) : Nat :=
  match codeFloat code with
  | some f => f.round r x
  | none => x.toInteger r (codeBits code)

/-- The magnitude of a value, for R89: none for NaN or an infinity. -/
def Num.floorLog2 : Num → Option (Option Int)
  | .fin _ m e => if m = 0 then some none else some (some (e + Nat.log2 m))
  | _ => none

/-- The scale of an MX block from its input elements (R89). -/
def mxScale (code : Nat) (block : List Num) : Nat :=
  if block.all Num.finite then
    let top := block.foldl (fun (acc : Option Int) x =>
      match x.floorLog2, acc with
      | some (some v), some w => some (max v w)
      | some (some v), none => some v
      | _, _ => acc) none
    match top with
    | none => 0
    | some v => (clampInt 0 254 (v - mxEmax code + 127)).toNat
  else 0xFF

/-- One element of an MX block under its scale (R89). -/
def mxElement (r : Rounding) (code scale : Nat) (x : Num) : Nat :=
  if scale = 0xFF then 0
  else match codeFloat code with
    | some f => f.round r (x.shift (127 - (scale : Int)))
    | none => 0

/-- CG32's mixing function (R93). -/
def cgMix (z : BitVec 64) : BitVec 64 :=
  let z := (z ^^^ (z >>> 30)) * 0xBF58476D1CE4E5B9
  let z := (z ^^^ (z >>> 27)) * 0x94D049BB133111EB
  z ^^^ (z >>> 31)

/-- CG32 (R93). -/
def cg32 (seed stage dev core lane idx : Nat) : Nat :=
  let h := cgMix (BitVec.ofNat 64 seed + BitVec.ofNat 64 stage * 0x9E3779B97F4A7C15)
  let h := cgMix (h ^^^ BitVec.ofNat 64 (dev * 2 ^ 22 + core * 2 ^ 13 + lane))
  let h := cgMix (h ^^^ BitVec.ofNat 64 idx)
  (h >>> 32).toNat

/-- floor(sqrt v) by trial of n result bits. -/
def floorSqrt (v : Nat) : Nat → Nat → Nat
  | 0, acc => acc
  | n + 1, acc =>
    let t := acc + 2 ^ n
    floorSqrt v n (if t * t ≤ v then t else acc)

/-- A magnitude known to lie strictly between m x 2^e and (m + 1) x 2^e, as an exact value that rounds
to nearest even as it does. -/
def Num.between (neg : Bool) (m : Nat) (e : Int) : Num := .fin neg (2 * m + 1) (e - 1)

/-- Reciprocal, correctly rounded to FP32 (R92). -/
def fp32Rcp : Num → Num
  | .nan => .nan
  | .inf a => .fin a 0 0
  | .fin a m e =>
    if m = 0 then .inf a
    else
      let q := 2 ^ 96 / m
      if q * m = 2 ^ 96 then .fin a q (-96 - e) else .between a q (-96 - e)

/-- Reciprocal square root, correctly rounded to FP32 (R92). -/
def fp32Rsq : Num → Num
  | .nan => .nan
  | .inf a => if a then .nan else .fin false 0 0
  | .fin a m e =>
    if m = 0 then .inf a
    else if a then .nan
    else
      let m' := if e % 2 = 0 then m else 2 * m
      let e' := if e % 2 = 0 then e else e - 1
      let q := 2 ^ 192 / m'
      let root := floorSqrt q 100 0
      if root * root * m' = 2 ^ 192 then .fin false root (-96 - e' / 2) else .between false root (-96 - e' / 2)

/-- floor(ln 2 x 2^192). -/
def ln2Fixed : Nat := 0xb17217f7d1cf79abc9e3b39803f2f6af40f343267298b62d

/-- Sum of the series of e^y, y and the sum in units of 2^-192, `n` terms from the k-th. -/
def expSeries (y : Nat) : Nat → Nat → Nat → Nat → Nat
  | 0, _, _, acc => acc
  | n + 1, k, term, acc => expSeries y n (k + 1) (term * y / 2 ^ 192 / k) (acc + term)

/-- exp2, correctly rounded to FP32 (R92). Below -200 and from 256 up the result is beyond FP32's range. -/
def fp32Exp2 : Num → Num
  | .nan => .nan
  | .inf a => if a then .fin false 0 0 else .inf false
  | .fin a m e =>
    -- the argument in units of 2^-192, rounded down
    let x : Int := if 0 ≤ e then signMag a (m * 2 ^ e.toNat) * 2 ^ 192
      else (signMag a m * 2 ^ 192) / (2 : Int) ^ (-e).toNat
    let exact : Bool := 0 ≤ e || m % 2 ^ (-e).toNat = 0
    let whole : Int := x / (2 : Int) ^ 192
    let frac : Nat := (x % (2 : Int) ^ 192).toNat
    if 256 ≤ whole then .fin false 1 300
    else if whole < -200 then .between false 0 (-300)
    else if exact then .fin false 1 whole
    else .between false (expSeries (frac * ln2Fixed / 2 ^ 192) 64 1 (2 ^ 192) 0 / 2 ^ 24) (whole - 168)

/-- `n` bits of log2 z, z in units of 2^-320 from 1 up to 2, by repeated squaring. -/
def log2Bits : Nat → Nat → Nat → Nat
  | 0, _, acc => acc
  | n + 1, z, acc =>
    let z2 := z * z / 2 ^ 320
    if 2 ^ 321 ≤ z2 then log2Bits n (z2 / 2) (2 * acc + 1) else log2Bits n z2 (2 * acc)

/-- log2, correctly rounded to FP32 (R92). -/
def fp32Log2 : Num → Num
  | .nan => .nan
  | .inf a => if a then .nan else .inf false
  | .fin a m e =>
    if m = 0 then .inf true
    else if a then .nan
    else
      let k := Nat.log2 m
      let whole : Int := e + k
      if m = 2 ^ k then Num.ofInt whole
      else
        let fixed : Int := whole * 2 ^ 128 + log2Bits 128 (m * 2 ^ 320 / 2 ^ k) 0
        if 0 ≤ fixed then .between false fixed.toNat (-128) else .between true (-fixed - 1).toNat (-128)

/-- Effective ledger base w (R100). -/
def ledgerBase (window : Int) (lift : Nat) : Int := window + 32 * lift

/-- The marker of a spilled ledger, as 192 bits (R104). -/
def ledgerMarker : Nat := 2 ^ 191

/-- Result of a conversion into a ledger: its 192 bits, whether it spilled, and whether that spill is
non-finite (R101, R104). -/
structure LedgerResult where
  value : Nat
  spill : Bool
  nonFinite : Bool
  deriving DecidableEq, Repr

/-- Convert a value into a ledger under the base w (R101). -/
def toLedger (w : Int) : Num → LedgerResult
  | .nan => ⟨ledgerMarker, true, true⟩
  | .inf _ => ⟨ledgerMarker, true, true⟩
  | .fin neg m e =>
    -- |x| >= 2^(w + 159)
    if m ≠ 0 && w + 159 ≤ e + Nat.log2 m then ⟨ledgerMarker, true, false⟩
    else ⟨wrap 192 (signMag neg (Rounding.nearest.scale m e w)), false, false⟩

/-- Add two ledgers modulo 2^192; an addition that changes the sign of a sum whose addends share a sign
spills (R102). -/
def addLedger (a b : Nat) : LedgerResult :=
  let t := (a + b) % 2 ^ 192
  let sa := bitAt a 191
  let sb := bitAt b 191
  if sa = sb && bitAt t 191 != sa then ⟨ledgerMarker, true, false⟩ else ⟨t, false, false⟩

/-- The value of a ledger under the base w (R99). -/
def ledgerValue (w : Int) (l : Nat) : Num := (Num.ofInt (signed 192 l)).shift w

/-- The elements of a byte string packed `b` bits each, element 0 in the lowest bits (R86, R87). -/
def unpackElements (b n v : Nat) : List Nat := (countFrom 0 n).map fun i => v / 2 ^ (b * i) % 2 ^ b

/-- Elements packed `b` bits each into one number. -/
def packElements (b : Nat) : List Nat → Nat
  | [] => 0
  | v :: r => v % 2 ^ b + 2 ^ b * packElements b r

end Sys2Proof.Machine
end

