-- ==== Sys2Proof/Machine/Scratchpad.lean ====
section
/-! DEFINITION. Scratchpad: banks and groups, regions, written marks and selectors, reads and writes as
a stage sees them (R109 to R127). -/

namespace Sys2Proof.Machine

/-- First byte above the scratchpad (R64). -/
def scratchEnd : Nat := 0x600000

/-- Power group of an address (R109). -/
def powerGroup (a : Nat) : Nat := a / 0x180000

/-- Unit number inside the group (R109). -/
def scratchUnit (a : Nat) : Nat := a % 0x180000 / 128

/-- Bank of an address (R109). -/
def scratchBank (a : Nat) : Nat := 6 * powerGroup a + scratchUnit a % 6

/-- Bank row of an address (R109). -/
def scratchRow (a : Nat) : Nat := scratchUnit a / 6

/-- Region modes (Table 5.1). -/
inductive RegionMode where
  | plain | green | held | reserved
  deriving DecidableEq, Repr

/-- The fields of a region descriptor (Table 5.1), ranges in bytes. -/
structure ScratchRegion where
  valid : Bool
  mode : RegionMode
  fill : Bool
  base : Nat
  size : Nat
  back : Nat
  home : Nat
  deriving DecidableEq, Repr

/-- Read a region descriptor. -/
def readRegion (d : BitVec 128) : ScratchRegion :=
  let v := d.toNat
  { valid := bitAt v 127
    mode := (match bits v 126 125 with | 0 => .plain | 1 => .green | 2 => .held | _ => .reserved)
    fill := bitAt v 124
    base := bits v 123 113 * 4096
    size := bits v 112 102 * 4096
    back := bits v 101 91 * 4096
    home := bits v 83 48 * 4096 }

/-- Does the range of n bytes from a lie wholly inside the region? -/
def ScratchRegion.covers (r : ScratchRegion) (a n : Nat) : Bool :=
  r.valid && r.base ≤ a && a + n ≤ r.base + r.size

/-- The valid region that wholly holds n bytes from a (R116). -/
def Core.regionAt (c : Core) (a n : Nat) : Option ScratchRegion :=
  (c.regions.map fun e => readRegion e.2).find? fun r => r.covers a n

/-- Number of valid descriptors (OD 3nnn.24). -/
def Core.regionCount (c : Core) : Nat := (c.regions.filter fun e => (readRegion e.2).valid).length

/-- Groups that some valid region covers by an address or back address (R113). -/
def groupsOf (regions : Table (BitVec 128)) : BitVec 4 :=
  let touches (g : Nat) (a n : Nat) : Bool := n ≠ 0 && powerGroup a ≤ g && g ≤ powerGroup (a + n - 1)
  let any (g : Nat) : Bool := regions.any fun e =>
    let r := readRegion e.2
    r.valid && (touches g r.base r.size || (r.mode = .green && touches g r.back r.size))
  BitVec.ofNat 4 (flag (any 0) + 2 * flag (any 1) + 4 * flag (any 2) + 8 * flag (any 3))

/-- Line number of an address. -/
def lineOf (a : Nat) : Nat := a / 64

/-- Where the back copy of a green line lies while its selector is 0 (R119). -/
def ScratchRegion.second (r : ScratchRegion) (a : Nat) : Nat := r.back + (a - r.base)

/-- Address of a line's front copy (R119). -/
def Core.frontAddress (c : Core) (r : ScratchRegion) (line : Nat) : Nat :=
  if r.mode = .green && Table.look c.selector false line then r.second (64 * line) else 64 * line

/-- Address of a line's back copy (R119); a line of another mode has one copy. -/
def Core.backAddress (c : Core) (r : ScratchRegion) (line : Nat) : Nat :=
  if r.mode = .green && !Table.look c.selector false line then r.second (64 * line) else 64 * line

/-- Address at which a stage reads a line: the back copy of a written green line, else the front (Table 5.2). -/
def Core.readAddress (c : Core) (r : ScratchRegion) (line : Nat) : Nat :=
  if r.mode = .green && Table.look c.written false line then c.backAddress r line else c.frontAddress r line

/-- The 64 bytes of a line as a stage reads them: a plain line without the mark reads as zero (R118). -/
def Core.readLine (c : Core) (r : ScratchRegion) (line : Nat) : Bytes :=
  if r.mode = .plain && !Table.look c.written false line then zeroBytes 64
  else Memory.read c.scratch 0 (c.readAddress r line) 64

/-- n bytes from a, all in one region, as a stage reads them. -/
def Core.readScratch (c : Core) (a n : Nat) : Bytes :=
  match c.regionAt a n with
  | none => zeroBytes n
  | some r =>
    let lines := countFrom (lineOf a) (lineOf (a + n - 1) + 1 - lineOf a)
    slice (lines.flatMap (c.readLine r)) (a % 64) n

/-- Overlay of bytes at an address on n bytes read from a. -/
def overlay (a : Nat) (b : Bytes) (at' : Nat) (w : Bytes) : Bytes :=
  (countFrom 0 b.length).map fun i =>
    if at' ≤ a + i && a + i < at' + w.length then w.getD (a + i - at') 0 else b.getD i 0

/-- n bytes as a load of the shadow window reads them: through the store hold first, then the bank (R136). -/
def Core.readThroughHold (c : Core) (a n : Nat) : Bytes :=
  let b := c.readScratch a n
  match c.region with
  | none => b
  | some g => g.hold.foldl (fun b h => match h with
      | .store x w _ => overlay a b x w
      | .dst _ _ _ => b) b

/-- Words of n bytes from a that hold a check mismatch in the copy a stage reads: the offset of each in the range and
its address; a plain line without the mark is not read (R118, R124, R125). -/
def Core.badWords (c : Core) (a n : Nat) : List (Nat × Nat) :=
  match c.regionAt a n with
  | none => []
  | some r =>
    (countFrom (a / 8) ((a + n - 1) / 8 + 1 - a / 8)).filterMap fun w =>
      let line := lineOf (8 * w)
      let physical := c.readAddress r line + 8 * w % 64
      if c.scratchErrors.contains physical && !(r.mode = .plain && !Table.look c.written false line) then
        some (8 * w - a, physical)
      else none

/-- The first word of n bytes from a that a read finds in error (R125). -/
def Core.readError (c : Core) (a n : Nat) : Option Nat := ((c.badWords a n).head?).map (·.2)

/-- Address of the copy in which a stage's read of the line at a falls (R119). -/
def Core.readCopy (c : Core) (a : Nat) : Nat :=
  match c.regionAt (64 * lineOf a) 64 with
  | some r => c.readAddress r (lineOf a)
  | none => 64 * lineOf a

/-- Address of the copy to which a write of the line at a goes (R119). -/
def Core.writtenCopy (c : Core) (a : Nat) : Nat :=
  match c.regionAt (64 * lineOf a) 64 with
  | some r => c.backAddress r (lineOf a)
  | none => 64 * lineOf a

/-- Users of an outer port, highest rank first (R112). -/
def portMesh : Nat := 0
def portDepot : Nat := 1
def portMirror : Nat := 2
def portSteward : Nat := 3

/-- Has the outer port of a bank served no unit yet in this cycle (R110)? -/
def Core.portFree (c : Core) (bank : Nat) : Bool := Table.look c.outerFree 0 bank ≤ c.cycle

/-- Does a user of a higher rank wait for a bank's outer port (R112)? -/
def Core.outranked (c : Core) (bank user : Nat) : Bool := (Table.look c.outer 0 bank).toNat % 2 ^ user ≠ 0

/-- May a user transfer at a bank's outer port in this cycle (R110, R112)? -/
def Core.mayTransfer (c : Core) (bank user : Nat) : Bool := c.portFree bank && !c.outranked bank user

/-- A unit passes a bank's outer port in cycle t (R110). -/
def Core.usePort (c : Core) (bank t : Nat) : Core :=
  { c with outerFree := Table.put c.outerFree 0 bank (max (Table.look c.outerFree 0 bank) (t + 1)) }

/-- A user waits for a bank's outer port no longer. -/
def Core.leavePort (c : Core) (bank user : Nat) : Core :=
  { c with outer := Table.put c.outer 0 bank (Table.look c.outer 0 bank &&& ~~~(BitVec.ofNat 4 (2 ^ user))) }

/-- A user's unit passes a bank's outer port in this cycle. -/
def Core.takePort (c : Core) (bank user : Nat) : Core := (c.leavePort bank user).usePort bank c.cycle

/-- A user that is not granted waits in its own buffer (R112). -/
def Core.waitPort (c : Core) (bank user : Nat) : Core :=
  { c with outer := Table.put c.outer 0 bank (Table.look c.outer 0 bank ||| BitVec.ofNat 4 (2 ^ user)) }

/-- Does a write that touches n bytes from a, in a region with this fill bit, break R116 or R121? -/
def Core.writeBreach (c : Core) (a n : Nat) (fill : Bool) : Bool :=
  match c.regionAt a n with
  | none => true
  | some r =>
    if r.mode = .held || r.mode = .reserved || r.fill ≠ fill then true
    else if r.mode = .green then
      let lines := countFrom (lineOf a) (lineOf (a + n - 1) + 1 - lineOf a)
      lines.any fun l => !Table.look c.written false l && !(a ≤ 64 * l && 64 * l + 64 ≤ a + n)
    else false

/-- Do two byte ranges, given by first byte and length, overlap? -/
def rangesOverlap (a n b m : Nat) : Bool := n ≠ 0 && m ≠ 0 && a < b + m && b < a + n

/-- The words of n bytes from a physical address get good check bits. DESIGN CHOICE (log entry 60): a word that a write meets only in
part gets good check bits too; the spec does not say what a partial write leaves of a word in error. -/
def Core.clearErrors (c : Core) (address n : Nat) : Core :=
  { c with scratchErrors := c.scratchErrors.filter fun e => !rangesOverlap e 8 address n }

/-- The 64-bit word at a physical address. -/
def Core.wordAt (c : Core) (word : Nat) : BitVec 64 := BitVec.ofNat 64 (leNat (Memory.read c.scratch 0 word 8))

/-- The check bits stored with a word (R124): the CRC-8 of its data, or, where a mismatch has been reported, some other
value, which no report gives (log entry 19). -/
def Core.storedCheck (c : Core) (word : Nat) : Byte :=
  let y := Config.scratchSyndrome word
  crc8 (c.wordAt word) ^^^ (if !c.scratchErrors.contains word then 0 else if y = 0 then 1 else y)

/-- Write bytes to a physical address, with good check bits. -/
def Core.storeRaw (c : Core) (address : Nat) (b : Bytes) : Core :=
  { c with scratch := Memory.write c.scratch 0 address b }.clearErrors address b.length

/-- Write part of one line (R118, R119): the first write to a plain line zeroes its other bytes, and a
green line goes to its back copy. `b` covers bytes from `a`, of which those inside the line are written. -/
def Core.writeLine (c : Core) (r : ScratchRegion) (line a : Nat) (b : Bytes) : Core :=
  let target := if r.mode = .green then c.backAddress r line else 64 * line
  let lo := max a (64 * line)
  let hi := min (a + b.length) (64 * line + 64)
  let c := if Table.look c.written false line then c else c.storeRaw target (zeroBytes 64)
  let c := c.storeRaw (target + (lo - 64 * line)) (slice b (lo - a) (hi - lo))
  { c with written := Table.put c.written false line true }

/-- Write bytes from a, all inside one region whose rules they keep. -/
def Core.writeScratch (c : Core) (a : Nat) (b : Bytes) : Core :=
  match c.regionAt a b.length with
  | none => c
  | some r =>
    let lines := countFrom (lineOf a) (lineOf (a + b.length - 1) + 1 - lineOf a)
    lines.foldl (fun c l => c.writeLine r l a b) c

/-- The home address of a green region's byte a, where the mirror write goes (R122); none for a region of
another mode. -/
def Core.mirrorAddress (c : Core) (a n : Nat) : Option Nat :=
  match c.regionAt a n with
  | some r => if r.mode = .green then some (r.home + (a - r.base)) else none
  | none => none

/-- Faults of an access of the core's own slots to n bytes from a: the limit of R64, the power groups of
R113, and a region (R116). -/
def Core.accessFaults (c : Core) (a : Int) (n : Nat) : List Nat :=
  let low := a.toNat
  if a < 0 || scratchEnd < low + n then [0x40]
  else
    let groups := countFrom (powerGroup low) (powerGroup (low + n - 1) + 1 - powerGroup low)
    let dark := groups.any fun g => !c.powered.getLsbD g
    (if dark then [0x41] else []) ++ (if (c.regionAt low n).isNone then [0x42] else [])

/-- Faults of a read by the core's own slots. -/
def Core.readFaults (c : Core) (a : Int) (n : Nat) : List Nat := c.accessFaults a n

/-- Faults of a write by the core's own slots: R116 and R121 too. -/
def Core.writeFaults (c : Core) (a : Int) (n : Nat) : List Nat :=
  let f := c.accessFaults a n
  if f.isEmpty && c.writeBreach a.toNat n false then [0x42] else f

end Sys2Proof.Machine
end

