-- ==== Sys2Proof/Machine/Operands.lean ====
section
/-! DEFINITION. Operand forms: the slots of a bundle (Tables 3.1 to 3.9), reserved values (R57, R60 to R65,
R90, R481), address generators (R67), latencies (Table 2.10) and depot descriptors (Table 6.3). -/

namespace Sys2Proof.Machine

/-- A bit field of a number as a bit vector. -/
def fieldOf (v hi lo : Nat) : BitVec (hi - lo + 1) := BitVec.ofNat _ (bits v hi lo)

/-- The S slot's operation (Tables 3.4, 3.5), none for an opcode that is not listed. -/
def decodeS (w : Nat) : Option SOp :=
  let d := fieldOf w 33 31
  let a := fieldOf w 30 28
  let b := fieldOf w 27 25
  let imm := fieldOf w 27 4
  match bits w 39 34 with
  | 0x01 => some (.add d a b)
  | 0x02 => some (.sub d a b)
  | 0x03 => some (.and d a b)
  | 0x04 => some (.or d a b)
  | 0x05 => some (.xor d a b)
  | 0x06 => some (.shl d a b)
  | 0x07 => some (.shr d a b)
  | 0x08 => some (.sar d a b)
  | 0x09 => some (.mul d a b)
  | 0x0A => some (.mov d a b)
  | 0x10 => some (.addi d a imm)
  | 0x11 => some (.movi d a imm)
  | 0x12 => some (.shli d a imm)
  | 0x18 => some (.cmp (fieldOf w 33 32) (fieldOf w 31 29) (fieldOf w 28 27) (fieldOf w 26 25)
      (fieldOf w 24 22) (fieldOf w 21 6))
  | 0x19 => some (.br (fieldOf w 33 32) (bitAt w 31) (bitAt w 30) (fieldOf w 29 20) (fieldOf w 19 10) (fieldOf w 9 0))
  | 0x1A => some (.loop (fieldOf w 33 32) (fieldOf w 31 8))
  | 0x20 => some (.agb (fieldOf w 33 30) (fieldOf w 29 27) (fieldOf w 26 3) (bitAt w 2))
  | 0x21 => some (.ags (fieldOf w 33 30) (fieldOf w 29 28) (fieldOf w 27 4))
  | 0x28 => some (.csrc (fieldOf w 33 32) (fieldOf w 31 29))
  | 0x29 => some (.cadd (fieldOf w 33 32) (fieldOf w 31 16))
  | 0x2A => some (.crd (fieldOf w 33 31) (fieldOf w 30 29))
  | 0x30 => some (.stg (fieldOf w 33 31) (fieldOf w 30 28))
  | _ => none

/-- V-slot opcodes (Table 3.7), VIMM apart. -/
def vCode : Nat → Option VCode
  | 0x01 => some .vadd
  | 0x02 => some .vsub
  | 0x03 => some .vmul
  | 0x04 => some .vfma
  | 0x05 => some .vmin
  | 0x06 => some .vmax
  | 0x07 => some .vcmp
  | 0x08 => some .vsel
  | 0x09 => some .vand
  | 0x0A => some .vor
  | 0x0B => some .vxor
  | 0x0C => some .vshl
  | 0x0D => some .vshr
  | 0x0E => some .vsar
  | 0x10 => some .vexp2
  | 0x11 => some .vlog2
  | 0x12 => some .vrcp
  | 0x13 => some .vrsq
  | 0x18 => some .vcvt
  | 0x19 => some .vpack
  | 0x1A => some .vunpk
  | 0x20 => some .vred
  | 0x21 => some .vbcx
  | 0x23 => some .vmov
  | _ => none

/-- The V slot's operation (Tables 3.6, 3.7). -/
def decodeV (w : Nat) : Option VOp :=
  if bits w 47 41 = 0x22 then some (.imm (fieldOf w 40 38) (fieldOf w 37 33) (fieldOf w 31 0))
  else (vCode (bits w 47 41)).map fun o => .lane o
    { type := fieldOf w 40 38, d := fieldOf w 37 33, a := fieldOf w 32 28, b := fieldOf w 27 23
      c := fieldOf w 22 18, rnd := fieldOf w 17 16, fmt := fieldOf w 15 12, rel := fieldOf w 11 9 }

/-- The M slot's operation (Table 3.8). -/
def decodeM (w : Nat) : Option MOp :=
  match bits w 39 36 with
  | 0x1 => some (.mma (bitAt w 35) (bitAt w 34) (fieldOf w 33 30) (fieldOf w 29 26) (fieldOf w 25 10)
      (fieldOf w 9 6) (fieldOf w 5 2))
  | 0x2 => some (.drain (bitAt w 35) (fieldOf w 34 32) (fieldOf w 31 28) (fieldOf w 27 26) (fieldOf w 25 20)
      (fieldOf w 19 15) (fieldOf w 14 4))
  | _ => none

/-- The L slot's operation (R63, Table 3.9). -/
def decodeL (w : Nat) : Option LOp :=
  match bits w 39 35 with
  | 0x01 => some (.ld (fieldOf w 34 30) (fieldOf w 29 26) (fieldOf w 25 10))
  | 0x02 => some (.ldx (fieldOf w 34 32) (fieldOf w 29 26) (fieldOf w 25 10))
  | 0x03 => some (.dld (fieldOf w 34 30) (bitAt w 29) (fieldOf w 28 26))
  | _ => none

/-- The T slot's operation (R63, Table 3.9). -/
def decodeT (w : Nat) : Option TOp :=
  match bits w 39 35 with
  | 0x01 => some (.st (fieldOf w 34 30) (fieldOf w 29 26) (fieldOf w 25 10))
  | 0x02 => some (.stx (fieldOf w 34 32) (fieldOf w 29 26) (fieldOf w 25 10))
  | 0x03 => some (.dst (fieldOf w 34 30) (bitAt w 29) (fieldOf w 28 26))
  | _ => none

/-- The Y slot's operation (R65). -/
def decodeY (w : Nat) : Option YOp :=
  match bits w 31 27 with
  | 0x01 => some (.wwb (bitAt w 26) (fieldOf w 25 16))
  | 0x02 => some (.wdp (bitAt w 26) (bitAt w 25) (fieldOf w 24 20))
  | _ => none

/-- A bundle's header (Table 3.2). -/
structure Header where
  cls : Nat
  marker : Nat
  shadow : Bool
  ends : Nat
  deriving DecidableEq, Repr

/-- Region markers (Table 3.2). -/
def markNone : Nat := 0
def markBranch : Nat := 1
def markEnd : Nat := 2
def markJoin : Nat := 3

/-- A bundle taken apart: its header, the operations of its non-empty slots, and the slots whose opcode is
reserved (R57). -/
structure Bundle where
  header : Header
  ops : List SlotOp
  badSlots : List Nat
  deriving DecidableEq, Repr

/-- Take a bundle apart (Tables 3.1, 3.2). A slot whose mask bit is 1 issues nothing (R57). -/
def decodeBundle (b : BitVec 256) : Bundle :=
  let v := b.toNat
  let mask (i : Nat) : Bool := bitAt v (240 + i)
  let slot (i number : Nat) (op : Option SlotOp) : List SlotOp × List Nat :=
    if mask i then ([], []) else match op with
      | some o => ([o], [])
      | none => ([], [number])
  let parts := [slot 15 1 ((decodeS (bits v 239 200)).map .s), slot 14 2 ((decodeV (bits v 199 152)).map .v),
    slot 13 3 ((decodeM (bits v 151 112)).map .m), slot 12 4 ((decodeL (bits v 111 72)).map .l),
    slot 11 5 ((decodeT (bits v 71 32)).map .t), slot 10 6 ((decodeY (bits v 31 0)).map .y)]
  { header := { cls := bits v 249 247, marker := bits v 246 245, shadow := bitAt v 244, ends := bits v 243 240 }
    ops := parts.flatMap (·.1), badSlots := parts.flatMap (·.2) }

/-- Element types of the V slot (R61). -/
def typeFp64 : Nat := 0
def typeFp32 : Nat := 1
def typeBf16 : Nat := 2
def typeFp16 : Nat := 3
def typeInt32 : Nat := 4
def typeInt16 : Nat := 5
def typeInt8 : Nat := 6

/-- Format code of an element type (Tables 3.3, 3.6). -/
def typeCode : Nat → Nat
  | 0 => 0xE
  | 1 => 0x0
  | 2 => 0x1
  | 3 => 0x2
  | 4 => 0xC
  | 5 => 0xD
  | _ => 0xA

/-- Is the type a floating-point type? -/
def typeFloat (t : Nat) : Bool := t ≤ 3

/-- Is the code a lane type of Table 2.7? -/
def laneCode (c : Nat) : Bool := [0x0, 0x1, 0x2, 0xA, 0xC, 0xD, 0xE].contains c

/-- Is the code a storage format of VPACK and VUNPK (Table 2.7, last row)? -/
def storageCode (c : Nat) : Bool := (0x3 ≤ c && c ≤ 0x9) || c = 0xB

/-- Types that an opcode allows (Table 3.7). -/
def VCode.allows (o : VCode) (t : Nat) : Bool :=
  match o with
  | .vadd => t ≤ 6
  | .vsub => t ≤ 6
  | .vmul => t ≤ 5
  | .vfma => t ≤ 3
  | .vmin => 1 ≤ t && t ≤ 3
  | .vmax => 1 ≤ t && t ≤ 3
  | .vcmp => t ≤ 3
  | .vsel => 4 ≤ t && t ≤ 6
  | .vand => 4 ≤ t && t ≤ 6
  | .vor => 4 ≤ t && t ≤ 6
  | .vxor => 4 ≤ t && t ≤ 6
  | .vshl => 4 ≤ t && t ≤ 6
  | .vshr => 4 ≤ t && t ≤ 6
  | .vsar => 4 ≤ t && t ≤ 6
  | .vexp2 => t = 1
  | .vlog2 => t = 1
  | .vrcp => t = 1
  | .vrsq => t = 1
  | .vcvt => t ≤ 6
  | .vpack => 1 ≤ t && t ≤ 3
  | .vunpk => 1 ≤ t && t ≤ 3
  | .vred => t = 0 || t = 1 || t = 4
  | .vbcx => t ≤ 6
  | .vmov => t ≤ 6

/-- Opcodes that read a second source, or name it as VPACK and VUNPK do (Table 3.7). -/
def VCode.usesB (o : VCode) : Bool :=
  match o with
  | .vexp2 => false
  | .vlog2 => false
  | .vrcp => false
  | .vrsq => false
  | .vcvt => false
  | .vbcx => false
  | .vmov => false
  | .vred => false
  | _ => true

/-- VFMA and VSEL read a third source (R481). -/
def VCode.usesC (o : VCode) : Bool :=
  match o with
  | .vfma => true
  | .vsel => true
  | _ => false

/-- Operations on which rnd = 1 is allowed (R90). -/
def VCode.rounds (o : VCode) (t : Nat) : Bool :=
  match o with
  | .vadd => typeFloat t
  | .vsub => typeFloat t
  | .vmul => typeFloat t
  | .vfma => typeFloat t
  | .vcvt => typeFloat t
  | .vpack => typeFloat t
  | _ => false

/-- Does the V operation hold a reserved value (R61, R90, R481)? -/
def VOp.reserved : VOp → Bool
  | .imm t _ _ => t.toNat = 0 || t.toNat = 7
  | .lane o f =>
    let t := f.type.toNat
    let fmt := f.fmt.toNat
    !o.allows t
    || (!o.usesC && f.c ≠ 0)
    || (!o.usesB && o ≠ .vred && f.b ≠ 0)
    || (o = .vred && (4 ≤ f.b.toNat || f.b.toNat = 3 || 8 ≤ f.d.toNat))
    || (o = .vbcx && 8 ≤ f.a.toNat)
    || (if o.rounds t then 2 ≤ f.rnd.toNat else f.rnd ≠ 0)
    || (match o with
        | .vcvt => !laneCode fmt
        | .vpack => !storageCode fmt
        | .vunpk => !storageCode fmt
        | _ => f.fmt ≠ 0)
    || (if o = .vcmp then 6 ≤ f.rel.toNat else f.rel ≠ 0)

/-- Does the S operation hold a reserved value (Table 3.4, R481)? -/
def SOp.reserved : SOp → Bool
  | .mov _ _ b => b ≠ 0
  | .movi _ a _ => a ≠ 0
  | .cmp _ rel _ mode _ _ => 6 ≤ rel.toNat || mode.toNat = 3
  | .br _ _ _ n _ _ => n = 0
  | .agb _ a _ useX => !useX && a ≠ 0
  | .csrc _ source => 4 ≤ source.toNat
  | .stg _ sel => 4 ≤ sel.toNat
  | _ => false

/-- k-steps of an MMA: 0 encodes 65,536 (Table 3.8). -/
def kSteps (k : BitVec 16) : Nat := if k = 0 then 65536 else k.toNat

/-- Does the M operation hold a reserved value (Table 3.8, R481)? -/
def MOp.reserved : MOp → Bool
  | .mma _ _ fa fb _ _ _ => 0xC ≤ fa.toNat || 0xC ≤ fb.toNat
  | .drain _ mode fmt rnd _ dest _ =>
    let m := mode.toNat
    5 ≤ m
    || (if m = 2 then !(1 ≤ fmt.toNat && fmt.toNat ≤ 4) || 2 ≤ rnd.toNat else fmt ≠ 0 || rnd ≠ 0)
    || (m ≠ 0 && 16 ≤ dest.toNat)

/-- Does the L operation hold a reserved value (R481)? -/
def LOp.reserved : LOp → Bool
  | .dld _ useX x => !useX && x ≠ 0
  | _ => false

/-- Does the T operation hold a reserved value (Table 3.9, R481)? Outbound descriptors are 0 to 23. -/
def TOp.reserved : TOp → Bool
  | .dst desc useX x => 24 ≤ desc.toNat || (!useX && x ≠ 0)
  | _ => false

/-- Does the Y operation hold a reserved value (R65)? -/
def YOp.reserved : YOp → Bool
  | .wdp _ outbound desc => outbound && 24 ≤ desc.toNat
  | _ => false

/-- Does the operation hold a reserved value, for the encoding code of its slot (Table 3.14)? -/
def SlotOp.reserved : SlotOp → Bool
  | .s o => o.reserved
  | .v o => o.reserved
  | .m o => o.reserved
  | .l o => o.reserved
  | .t o => o.reserved
  | .y o => o.reserved

/-- Register X[i]. -/
def Core.x (c : Core) (i : Nat) : BitVec 64 := Table.look c.regs.x 0 i

/-- Register V[i]. -/
def Core.v (c : Core) (i : Nat) : BitVec 4096 := Table.look c.regs.v 0 i

/-- Register K[i]. -/
def Core.k (c : Core) (i : Nat) : Bool := Table.look c.regs.k false i

/-- Counter C[i]. -/
def Core.counter (c : Core) (i : Nat) : Counter := Table.look c.regs.c Counter.reset i

/-- Address generator AG[i]. -/
def Core.ag (c : Core) (i : Nat) : AddrGen := Table.look c.regs.ag AddrGen.reset i

/-- Loop level L[i]. -/
def Core.loop (c : Core) (i : Nat) : LoopLevel := Table.look c.loops LoopLevel.reset i

/-- Word of the accumulator banks: bank, row, column. -/
def Core.accWord (c : Core) (bank : Bool) (row col : Nat) : BitVec 32 :=
  Table.look c.acc 0 (flag bank * 8192 + row * 128 + col)

/-- Write X[i]. -/
def Core.setX (c : Core) (i : Nat) (v : BitVec 64) : Core :=
  { c with regs := { c.regs with x := Table.put c.regs.x 0 i v } }

/-- Write V[i]. -/
def Core.setV (c : Core) (i : Nat) (v : BitVec 4096) : Core :=
  { c with regs := { c.regs with v := Table.put c.regs.v 0 i v } }

/-- Write K[i]. -/
def Core.setK (c : Core) (i : Nat) (v : Bool) : Core :=
  { c with regs := { c.regs with k := Table.put c.regs.k false i v } }

/-- Write C[i]. -/
def Core.setC (c : Core) (i : Nat) (v : Counter) : Core :=
  { c with regs := { c.regs with c := Table.put c.regs.c Counter.reset i v } }

/-- Write AG[i]. -/
def Core.setAg (c : Core) (i : Nat) (v : AddrGen) : Core :=
  { c with regs := { c.regs with ag := Table.put c.regs.ag AddrGen.reset i v } }

/-- The address of AG(g) (R67). -/
def Core.agAddress (c : Core) (g : Nat) : Nat :=
  let a := c.ag g
  (a.base + (c.loop 0).idx * a.stride0 + (c.loop 1).idx * a.stride1 + (c.loop 2).idx * a.stride2
    + (c.loop 3).idx * a.stride3).toNat

/-- Address of an L or T operation: AG(g) plus the signed offset in units (R64). -/
def Core.operandAddress (c : Core) (g : BitVec 4) (off : BitVec 16) (unit : Nat) : Int :=
  (c.agAddress g.toNat : Int) + off.toInt * unit

/-- Latencies of Table 2.10, by stepping. -/
def latScalar : Nat := 1
def latMul : Nat := 3
def latDiscard (b0 : Bool) : Nat := if b0 then 3 else 4
def latInt : Nat := 2
def latFp32 : Nat := 4
def latHalf (b0 : Bool) : Nat := if b0 then 3 else 4
def latFp64 (b0 : Bool) : Nat := if b0 then 5 else 6
def latConvert : Nat := 3
def latSpecial (b0 : Bool) : Nat := if b0 then 10 else 12
def latReduce (b0 : Bool) : Nat := if b0 then 7 else 9
def latReduce64 (b0 : Bool) : Nat := if b0 then 9 else 11
def latLoad (b0 : Bool) : Nat := if b0 then 4 else 5
def latStore : Nat := 3
def latMatrix (b0 : Bool) : Nat := if b0 then 6 else 8
def latDrain (b0 : Bool) : Nat := if b0 then 3 else 4
def latWait : Nat := 2

/-- Add, multiply and FMA row of a type (R485). -/
def latAdd (b0 : Bool) (t : Nat) : Nat :=
  if t = 0 then latFp64 b0 else if t = 1 then latFp32 else if t ≤ 3 then latHalf b0 else latInt

/-- Latency of a V operation (R485). -/
def VOp.latency (b0 : Bool) : VOp → Nat
  | .imm _ _ _ => latInt
  | .lane o f =>
    let t := f.type.toNat
    match o with
    | .vadd => latAdd b0 t
    | .vsub => latAdd b0 t
    | .vmul => latAdd b0 t
    | .vfma => latAdd b0 t
    | .vmin => latAdd b0 t
    | .vmax => latAdd b0 t
    | .vcmp => latAdd b0 t
    | .vexp2 => latSpecial b0
    | .vlog2 => latSpecial b0
    | .vrcp => latSpecial b0
    | .vrsq => latSpecial b0
    | .vcvt => latConvert
    | .vpack => latConvert
    | .vunpk => latConvert
    | .vred => if t = 0 then latReduce64 b0 else latReduce b0
    | _ => latInt

/-- Does the operation occupy the vector unit for 2 cycles (R37, R485)? -/
def VOp.occupies : VOp → Bool
  | .lane _ f => f.type = 0
  | .imm _ _ _ => false

/-- Is the V operation one that rounds stochastically (R94)? -/
def VOp.stochastic : VOp → Bool
  | .lane o f => o.rounds f.type.toNat && f.rnd.toNat = 1
  | .imm _ _ _ => false

/-- A depot descriptor's fields (Table 6.3). -/
structure Depot where
  valid : Bool
  kind : Nat
  fence : Bool
  ext : Nat
  sp : Nat
  run : Nat
  n1 : Nat
  n2 : Nat
  n3 : Nat
  es1 : Int
  es2 : Int
  es3 : Int
  ss1 : Int
  ss2 : Int
  ss3 : Int
  deriving DecidableEq, Repr

/-- Read a depot descriptor; ext and sp in bytes. -/
def readDepot (d : BitVec 256) : Depot :=
  let v := d.toNat
  { valid := bitAt v 255, kind := bits v 254 252, fence := bitAt v 251
    ext := 64 * bits v 237 196, sp := 64 * bits v 195 179, run := bits v 178 168
    n1 := bits v 167 156, n2 := bits v 155 144, n3 := bits v 143 132
    es1 := signed 26 (bits v 131 106), es2 := signed 26 (bits v 105 80), es3 := signed 26 (bits v 79 54)
    ss1 := signed 18 (bits v 53 36), ss2 := signed 18 (bits v 35 18), ss3 := signed 18 (bits v 17 0) }

/-- Does a descriptor hold a reserved value (Table 6.3, R157)? -/
def Depot.reserved (d : Depot) (inbound : Bool) : Bool :=
  2 ≤ d.kind || (inbound && d.kind = 1) || d.run = 0 || 1024 < d.run || d.n1 = 0 || d.n2 = 0 || d.n3 = 0

/-- Lines of the walk. -/
def Depot.lines (d : Depot) : Nat := d.run * d.n1 * d.n2 * d.n3

/-- External and scratchpad address of the walk's i-th line, from the offset of useX (R151). -/
def Depot.line (d : Depot) (offset : BitVec 64) (i : Nat) : Int × Int :=
  let l := i % d.run
  let r := i / d.run
  let i1 := r % d.n1
  let i2 := r / d.n1 % d.n2
  let i3 := r / d.n1 / d.n2
  let e : Int := (d.ext : Int) + offset.toInt + 64 * (i1 * d.es1 + i2 * d.es2 + i3 * d.es3) + 64 * l
  let sp : Int := (d.sp : Int) + 64 * (i1 * d.ss1 + i2 * d.ss2 + i3 * d.ss3) + 64 * l
  (e, sp)

/-- Lowest and highest value of base + i1 s1 + i2 s2 + i3 s3 over the corners, in bytes, with the run (R152). -/
def walkBounds (base : Int) (run : Nat) (dims : List (Nat × Int)) : Int × Int :=
  let lo := dims.foldl (fun a p => a + min 0 (((p.1 : Int) - 1) * p.2 * 64)) base
  let hi := dims.foldl (fun a p => a + max 0 (((p.1 : Int) - 1) * p.2 * 64)) base
  (lo, hi + 64 * run - 1)

/-- External bounding range: first and last byte (R152). -/
def Depot.extBounds (d : Depot) (offset : BitVec 64) : Int × Int :=
  walkBounds ((d.ext : Int) + offset.toInt) d.run [(d.n1, d.es1), (d.n2, d.es2), (d.n3, d.es3)]

/-- Scratchpad bounding range: first and last byte (R152). -/
def Depot.spBounds (d : Depot) : Int × Int :=
  walkBounds d.sp d.run [(d.n1, d.ss1), (d.n2, d.ss2), (d.n3, d.ss3)]

/-- Do two ranges given by first and last byte overlap? -/
def boundsOverlap (a b : Int × Int) : Bool := a.1 ≤ b.2 && b.1 ≤ a.2

/-- The range of n bytes from a as bounds. -/
def boundsOf (a : Int) (n : Nat) : Int × Int := (a, a + n - 1)

/-- Descriptor d (0 to 55) of a bank (R149). -/
def Core.descriptor (c : Core) (bank : Bool) (d : Nat) : BitVec 256 :=
  Table.look c.descriptors 0 (flag bank * 56 + d)

end Sys2Proof.Machine
end

