-- ==== Sys2Proof/Machine/Context.lean ====
section
/-! DEFINITION. The context table: entries, and writes of them by a core's DST (R198 to R202, Table 8.2). -/

namespace Sys2Proof.Machine

/-- The fields of a context entry (Table 8.2). -/
structure CtxEntry where
  fired : Nat
  k : Nat
  j : Nat
  aw : Bool
  kind : Nat
  itin : Nat
  slot : Nat
  len : Nat
  deriving DecidableEq, Repr

/-- Read a context entry's 64 bytes. -/
def readEntry (b : Bytes) : CtxEntry :=
  let v := leNat b
  { fired := bits v 511 480, k := bits v 479 476, j := bits v 475 472, aw := bitAt v 471, kind := bits v 470 468
    itin := bits v 467 465, slot := bits v 464 458, len := bits v 369 346 }

/-- Bytes of entry c as its fired frame holds them. -/
def firedEntry (s : State) (c : Nat) : Bytes :=
  if (getContext s c).entered then extBytes s (contextFrame s c (getContext s c).epoch) 64 else entryReset

/-- Bytes of entry c's working frame. -/
def workingEntry (s : State) (c : Nat) : Bytes := extBytes s (contextFrame s c (!(getContext s c).epoch)) 64

/-- Replace bits of a 64-byte entry. -/
def putField (b : Bytes) (hi lo x : Nat) : Bytes := leBytes (putBits (leNat b) hi lo x) 64

/-- Does a written frame hold a reserved value (Table 8.2)? -/
def CtxEntry.reserved (e : CtxEntry) : Bool :=
  9 ≤ e.k || 3 ≤ e.kind || (96 ≤ e.slot && e.slot ≤ 126)

/-- Is a write of entry c by logical core n refused (R201)? `old` is the fired entry, `new` the written one. -/
def contextRefused (s : State) (n c : Nat) (old new : CtxEntry) : Bool :=
  let slot := runningSlot s
  (match (getContext s c).writer with
    | some w => w ≠ n
    | none => false)
  || (old.kind ≠ 0 && old.itin ≠ slot)
  || new.itin ≠ slot
  || new.reserved
  || new.k < new.j
  || (0 < new.k && new.kind = 0)
  || (old.kind = 1 && new.kind = 2) || (old.kind = 2 && new.kind = 1)
  || (new.kind = 1 && 16 * new.len < old.fired + new.k)

/-- A write of entry c in a stage by logical core n: applied to the working frame, or refused with the core's
halt (R201); its reserved bits read as zero (R12). -/
def contextWrite (s : State) (n c : Nat) (b : Bytes) : State :=
  if contextRefused s n c (readEntry (firedEntry s c)) (readEntry b) then
    let s := odAdd s (od 0x2008 4) 1
    slot7Halt (odSet s (od 0x2008 6) c) n 0x42
  else
    let x := getContext s c
    let b := putField b 345 320 0
    addTerm (setContext (extWrite s (contextFrame s c (!x.epoch)) b) c { x with writer := some n }) (leBytes c 2 ++ b)

/-- Contexts whose entries were written in the stage, by number. -/
def touchedContexts (s : State) : List Nat :=
  (s.ctx.table.filter fun e => e.2.writer.isSome).map (·.1)

/-- An entry's new fired length at a fair post (Table 8.3). DESIGN CHOICE (log entry 60): 0 where the fired and the written kind are
both 0, for which the table has no row. -/
def newFired (old new : CtxEntry) : Nat :=
  if new.kind = 0 then 0
  else if old.kind = 0 then new.fired
  else if new.aw then old.fired + new.j else old.fired + new.k

end Sys2Proof.Machine
end

