-- ==== Sys2Proof/Machine/Lanes.lean ====
section
/-! DEFINITION. What the vector unit computes, lane by lane (R37, R38, R61, R86, R90 to R94, R479, R482). -/

namespace Sys2Proof.Machine

/-- What a core's operations read of the device (R49, R51, R93, R100). -/
structure Env where
  core : Nat
  b0 : Bool
  interlock : Bool
  lift : Nat
  seed : Nat
  stage : Nat
  dev : Nat
  deriving DecidableEq, Repr

/-- Lanes of an element type (Table 2.7). -/
def laneCount (code : Nat) : Nat := if codeBits code = 0 then 0 else 4096 / codeBits code

/-- Lanes of a register as numbers, lane 0 first. -/
def lanesOf (code : Nat) (v : BitVec 4096) : List Nat :=
  unpackElements (codeBits code) (laneCount code) v.toNat

/-- A register from its lanes. -/
def ofLanes (code : Nat) (l : List Nat) : BitVec 4096 := BitVec.ofNat 4096 (packElements (codeBits code) l)

/-- Rounding of element `lane` of an operation: stochastic where rnd is 1 (R90, R93, R94). -/
def Env.rounding (e : Env) (stochastic : Bool) (idx : BitVec 32) (lane : Nat) : Rounding :=
  if stochastic then .stochastic (cg32 e.seed e.stage e.dev e.core lane idx.toNat) else .nearest

/-- Value of a lane. -/
def laneNum (code v : Nat) : Num := elementValue code 127 v

/-- Lane-wise function of two lists, with the lane number. -/
def zipLanes (f : Nat → Nat → Nat → Nat) : Nat → List Nat → List Nat → List Nat
  | i, a :: as, b :: bs => f i a b :: zipLanes f (i + 1) as bs
  | _, _, _ => []

/-- Lane-wise function of one list, with the lane number. -/
def mapLanes (f : Nat → Nat → Nat) : Nat → List Nat → List Nat
  | _, [] => []
  | i, a :: as => f i a :: mapLanes f (i + 1) as

/-- One level of the pairwise tree (R38): adjacent elements. -/
def pairUp (f : Nat → Nat → Nat) : List Nat → List Nat
  | a :: b :: r => f a b :: pairUp f r
  | l => l

/-- The pairwise tree, at most n levels (R38). -/
def reduceTree (f : Nat → Nat → Nat) : Nat → List Nat → Nat
  | 0, l => l.headD 0
  | n + 1, l => match l with
    | [] => 0
    | [a] => a
    | l => reduceTree f n (pairUp f l)

/-- Sum of two lanes in round-to-nearest-even or wrapping. -/
def laneAdd (code : Nat) (r : Rounding) (a b : Nat) : Nat :=
  match codeFloat code with
  | some f => f.round r (Num.add (f.read a) (f.read b))
  | none => (a + b) % 2 ^ codeBits code

/-- Difference of two lanes. -/
def laneSub (code : Nat) (r : Rounding) (a b : Nat) : Nat :=
  match codeFloat code with
  | some f => f.round r (Num.add (f.read a) (f.read b).neg)
  | none => (a + (2 ^ codeBits code - b)) % 2 ^ codeBits code

/-- Product of two lanes. -/
def laneMul (code : Nat) (r : Rounding) (a b : Nat) : Nat :=
  match codeFloat code with
  | some f => f.round r (Num.mul (f.read a) (f.read b))
  | none => a * b % 2 ^ codeBits code

/-- a x b + c with one rounding. -/
def laneFma (code : Nat) (r : Rounding) (a b c : Nat) : Nat :=
  match codeFloat code with
  | some f => f.round r (Num.add (Num.mul (f.read a) (f.read b)) (f.read c))
  | none => (a * b + c) % 2 ^ codeBits code

/-- Minimum of two lanes (R479). -/
def laneMin (code a b : Nat) : Nat :=
  match codeFloat code with
  | some f => f.round .nearest (Num.minimum (f.read a) (f.read b))
  | none => if signed (codeBits code) b < signed (codeBits code) a then b else a

/-- Maximum of two lanes (R479). -/
def laneMax (code a b : Nat) : Nat :=
  match codeFloat code with
  | some f => f.round .nearest (Num.maximum (f.read a) (f.read b))
  | none => if signed (codeBits code) a < signed (codeBits code) b then b else a

/-- All ones where the relation holds, else zero. -/
def laneCmp (code rel a b : Nat) : Nat :=
  if Num.compare rel (laneNum code a) (laneNum code b) then 2 ^ codeBits code - 1 else 0

/-- Shifts by the count in the other lane (R86). -/
def laneShl (b a n : Nat) : Nat := if b ≤ n then 0 else a * 2 ^ n % 2 ^ b
def laneShr (b a n : Nat) : Nat := if b ≤ n then 0 else a / 2 ^ n
def laneSar (b a n : Nat) : Nat := wrap b (signed b a / (2 : Int) ^ min n b)

/-- The special functions of FP32 (R92). -/
def laneSpecial (o : VCode) (a : Nat) : Nat :=
  let x := FloatFmt.fp32.read a
  FloatFmt.fp32.round .nearest (match o with
    | .vexp2 => fp32Exp2 x
    | .vlog2 => fp32Log2 x
    | .vrcp => fp32Rcp x
    | _ => fp32Rsq x)

/-- VCVT: lane i from lane i, the rest of the destination zero (R482). -/
def convertLanes (e : Env) (st : Bool) (idx : BitVec 32) (src dst : Nat) (a : BitVec 4096) : BitVec 4096 :=
  let l := (lanesOf src a).take (laneCount dst)
  ofLanes dst (mapLanes (fun i v => convertTo (e.rounding st idx i) dst (laneNum src v)) 0 l)

/-- Blocks of 32 of a list. -/
def blocks32 {α : Type} : Nat → List α → List (List α)
  | 0, _ => []
  | n + 1, l => if l.isEmpty then [] else l.take 32 :: blocks32 n (l.drop 32)

/-- VPACK: the elements in the low bytes, and the MX scales, one byte per block (R89, Table 3.7). -/
def packRegister (e : Env) (st : Bool) (idx : BitVec 32) (src fmt : Nat) (a : BitVec 4096) : BitVec 4096 × List Nat :=
  let l := lanesOf src a
  if codeMx fmt then
    let bs := blocks32 (l.length / 32) l
    let scales := bs.map fun b => mxScale fmt (b.map (laneNum src))
    let el := mapLanes (fun i v => mxElement (e.rounding st idx i) fmt (scales.getD (i / 32) 0) (laneNum src v)) 0 l
    (BitVec.ofNat 4096 (packElements (codeBits fmt) el), scales)
  else
    let el := mapLanes (fun i v => convertTo (e.rounding st idx i) fmt (laneNum src v)) 0 l
    (BitVec.ofNat 4096 (packElements (codeBits fmt) el), [])

/-- VUNPK: elements from the low bytes, MX scales from the other register (Table 3.7). -/
def unpackRegister (dst fmt : Nat) (a b : BitVec 4096) : BitVec 4096 :=
  let n := laneCount dst
  let el := unpackElements (codeBits fmt) n a.toNat
  ofLanes dst (mapLanes (fun i v =>
    let scale := if codeMx fmt then b.toNat / 2 ^ (8 * (i / 32)) % 256 else 127
    convertTo .nearest dst (elementValue fmt scale v)) 0 el)

/-- Replace the low n bytes of a register by bytes. -/
def setLowBytes (v : BitVec 4096) (b : List Nat) : BitVec 4096 :=
  let n := 8 * b.length
  BitVec.ofNat 4096 (v.toNat / 2 ^ n * 2 ^ n + packElements 8 b)

/-- What VRED leaves in the X register (R38). -/
def reduceRegister (code kind : Nat) (a : BitVec 4096) : BitVec 64 :=
  let f : Nat → Nat → Nat := match kind with
    | 0 => laneAdd code .nearest
    | 1 => laneMax code
    | _ => laneMin code
  let r := reduceTree f 9 (lanesOf code a)
  if code = 0xC then (BitVec.ofNat 32 r).signExtend 64 else BitVec.ofNat 64 r

/-- The register that a lane operation writes to d, all lanes; the pre-issue registers are those of `c`. -/
def laneResult (e : Env) (c : Core) (o : VCode) (f : VFields) : BitVec 4096 :=
  let code := typeCode f.type.toNat
  let b := codeBits code
  let st := o.rounds f.type.toNat && f.rnd.toNat = 1
  let r := e.rounding st c.regs.stoch
  let va := c.v f.a.toNat
  let vb := c.v f.b.toNat
  let vc := c.v f.c.toNat
  let la := lanesOf code va
  let lb := lanesOf code vb
  match o with
  | .vadd => ofLanes code (zipLanes (fun i x y => laneAdd code (r i) x y) 0 la lb)
  | .vsub => ofLanes code (zipLanes (fun i x y => laneSub code (r i) x y) 0 la lb)
  | .vmul => ofLanes code (zipLanes (fun i x y => laneMul code (r i) x y) 0 la lb)
  | .vfma => ofLanes code (zipLanes (fun i xy z => laneFma code (r i) (xy / 2 ^ b) (xy % 2 ^ b) z) 0
      (zipLanes (fun _ x y => x * 2 ^ b + y) 0 la lb) (lanesOf code vc))
  | .vmin => ofLanes code (zipLanes (fun _ x y => laneMin code x y) 0 la lb)
  | .vmax => ofLanes code (zipLanes (fun _ x y => laneMax code x y) 0 la lb)
  | .vcmp => ofLanes code (zipLanes (fun _ x y => laneCmp code f.rel.toNat x y) 0 la lb)
  | .vsel => ofLanes code (zipLanes (fun _ xy z => if z ≠ 0 then xy / 2 ^ b else xy % 2 ^ b) 0
      (zipLanes (fun _ x y => x * 2 ^ b + y) 0 la lb) (lanesOf code vc))
  | .vand => va &&& vb
  | .vor => va ||| vb
  | .vxor => va ^^^ vb
  | .vshl => ofLanes code (zipLanes (fun _ x n => laneShl b x n) 0 la lb)
  | .vshr => ofLanes code (zipLanes (fun _ x n => laneShr b x n) 0 la lb)
  | .vsar => ofLanes code (zipLanes (fun _ x n => laneSar b x n) 0 la lb)
  | .vexp2 => ofLanes code (la.map (laneSpecial o))
  | .vlog2 => ofLanes code (la.map (laneSpecial o))
  | .vrcp => ofLanes code (la.map (laneSpecial o))
  | .vrsq => ofLanes code (la.map (laneSpecial o))
  | .vcvt => convertLanes e st c.regs.stoch code f.fmt.toNat va
  | .vpack => (packRegister e st c.regs.stoch code f.fmt.toNat va).1
  | .vunpk => unpackRegister code f.fmt.toNat va vb
  | .vbcx => ofLanes code (List.replicate (laneCount code) ((c.x f.a.toNat).toNat % 2 ^ b))
  | .vred => va
  | .vmov => va

end Sys2Proof.Machine
end

