-- ==== Sys2Proof/Machine/Flags.lean ====
section
/-! DEFINITION. Comparator results, the scoreboard and what keeps a bundle from issuing: hazards, waits and
faults of each slot (R36, R37, R39 to R46, R50 to R52, R64 to R66, R69, R152 to R155, Table 2.11). -/

namespace Sys2Proof.Machine

/-- Value of a CMP operand under its type (R36): 0 I64, 1 U64, 2 F32, 3 F64. -/
def cmpX (type : Nat) (v : BitVec 64) : Num :=
  match type with
  | 0 => Num.ofInt v.toInt
  | 1 => Num.ofInt v.toNat
  | 2 => FloatFmt.fp32.read (v.toNat % 2 ^ 32)
  | _ => FloatFmt.fp64.read v.toNat

/-- Value of a CMP immediate under its type (R36): always the sign-extended integer; for U64 its 64-bit
pattern read as unsigned. -/
def cmpImm (type : Nat) (v : BitVec 16) : Num :=
  if type = 1 then Num.ofInt (v.signExtend 64).toNat else Num.ofInt v.toInt

/-- X register that CMP mode 0 compares with: bits [21:19] of the slot, the top of `low` (Table 3.4). -/
def cmpB (low : BitVec 16) : Nat := low.toNat / 2 ^ 13

/-- The comparator result of CMP (R36). -/
def cmpResult (c : Core) (rel type mode : Nat) (a : Nat) (low : BitVec 16) : Bool :=
  match mode with
  | 0 => Num.compare rel (cmpX type (c.x a)) (cmpX type (c.x (cmpB low)))
  | 1 => Num.compare rel (cmpX type (c.x a)) (cmpImm type low)
  | _ => Num.compare rel (cmpImm type low) (cmpX type (c.x a))

/-- Scoreboard numbers of the registers (R50). -/
def resX (i : Nat) : Nat := i
def resV (i : Nat) : Nat := 8 + i
def resK (i : Nat) : Nat := 40 + i

/-- Cycle from which a register is readable. -/
def Core.readyAt (c : Core) (r : Nat) : Nat := Table.look c.regs.ready 0 r

/-- A register gets a new result, readable from a cycle on, with good check bits. -/
def Core.setReady (c : Core) (r cycle : Nat) : Core :=
  { c with regs := { c.regs with ready := Table.put c.regs.ready 0 r cycle, errors := c.regs.errors.filter (· ≠ r) } }

/-- Registers an S operation reads at issue. CMP and BR read later (R69). -/
def SOp.reads : SOp → List Nat
  | .add _ a b => [resX a.toNat, resX b.toNat]
  | .sub _ a b => [resX a.toNat, resX b.toNat]
  | .and _ a b => [resX a.toNat, resX b.toNat]
  | .or _ a b => [resX a.toNat, resX b.toNat]
  | .xor _ a b => [resX a.toNat, resX b.toNat]
  | .shl _ a b => [resX a.toNat, resX b.toNat]
  | .shr _ a b => [resX a.toNat, resX b.toNat]
  | .sar _ a b => [resX a.toNat, resX b.toNat]
  | .mul _ a b => [resX a.toNat, resX b.toNat]
  | .mov _ a _ => [resX a.toNat]
  | .addi _ a _ => [resX a.toNat]
  | .shli _ a _ => [resX a.toNat]
  | .agb _ a _ useX => if useX then [resX a.toNat] else []
  | _ => []

/-- Registers an S operation writes. -/
def SOp.writes : SOp → List Nat
  | .add d _ _ => [resX d.toNat]
  | .sub d _ _ => [resX d.toNat]
  | .and d _ _ => [resX d.toNat]
  | .or d _ _ => [resX d.toNat]
  | .xor d _ _ => [resX d.toNat]
  | .shl d _ _ => [resX d.toNat]
  | .shr d _ _ => [resX d.toNat]
  | .sar d _ _ => [resX d.toNat]
  | .mul d _ _ => [resX d.toNat]
  | .mov d _ _ => [resX d.toNat]
  | .addi d _ _ => [resX d.toNat]
  | .movi d _ _ => [resX d.toNat]
  | .shli d _ _ => [resX d.toNat]
  | .crd d _ => [resX d.toNat]
  | .stg d _ => [resX d.toNat]
  | .cmp k _ _ _ _ _ => [resK k.toNat]
  | _ => []

/-- Registers a V operation reads. -/
def VOp.reads : VOp → List Nat
  | .imm _ _ _ => []
  | .lane o f =>
    (if o = .vbcx then [resX f.a.toNat] else [resV f.a.toNat])
    ++ (if o.usesB && o ≠ .vpack && (o ≠ .vunpk || codeMx f.fmt.toNat) then [resV f.b.toNat] else [])
    ++ (if o.usesC then [resV f.c.toNat] else [])

/-- Registers a V operation writes: VPACK into an MX format writes its scales to b too. -/
def VOp.writes : VOp → List Nat
  | .imm _ d _ => [resV d.toNat]
  | .lane o f =>
    if o = .vred then [resX (f.d.toNat % 8)]
    else resV f.d.toNat :: (if o = .vpack && codeMx f.fmt.toNat then [resV f.b.toNat] else [])

/-- Rows that a drain to V delivers: 0 encodes 64 (Table 3.8). -/
def drainRows (count : BitVec 6) : Nat := if count = 0 then 64 else count.toNat

/-- Registers an operation reads at issue. -/
def SlotOp.reads : SlotOp → List Nat
  | .s o => o.reads
  | .v o => o.reads
  | .l (.dld _ useX x) => if useX then [resX x.toNat] else []
  | .t (.st r _ _) => [resV r.toNat]
  | .t (.stx x _ _) => [resX x.toNat]
  | .t (.dst _ useX x) => if useX then [resX x.toNat] else []
  | _ => []

/-- Registers an operation writes. -/
def SlotOp.writes : SlotOp → List Nat
  | .s o => o.writes
  | .v o => o.writes
  | .m (.drain _ mode _ _ count dest _) =>
    if mode = 0 then (countFrom 0 (min 32 (drainRows count))).map fun r => resV ((dest.toNat + r) % 32) else []
  | .l (.ld r _ _) => [resV r.toNat]
  | .l (.ldx x _ _) => [resX x.toNat]
  | _ => []

/-- What keeps a bundle from issuing: a halt in both modes; a hazard, which halts in scheduled mode and
stalls in interlock mode; a wait, which stalls in both (Table 2.11). -/
inductive Finding where
  | halt (code slot : Nat)
  | hazard (code slot : Nat)
  | wait (cause resource : Nat)
  deriving DecidableEq, Repr

/-- Does a format read as 4-bit in the array (Table 2.8)? -/
def rate4 (f : Nat) : Bool := f = 0x9 || f = 0xB

/-- Does a format read as 16-bit in the array? -/
def rate16 (f : Nat) : Bool := f = 0x1 || f = 0x2

/-- Cycle count C of an M operation (R114, Table 2.8). -/
def arrayCycles (k fa fb : Nat) : Nat :=
  if fa = 0 || fb = 0 then 8 * k
  else if rate16 fa || rate16 fb then 2 * k
  else if rate4 fa && rate4 fb then k / 2
  else k

/-- Bytes of an operand stream of n elements per k-step (R114). -/
def streamBytes (k n fmt : Nat) : Nat := k * n * codeBits fmt / 8

/-- Bytes of a scale stream of n scales per panel of 32 k-steps (R115). -/
def scaleBytes (k n fmt : Nat) : Nat := if codeMx fmt then k / 32 * n else 0

/-- Guarded ranges of an M operation, address and length: its A and its B stream (R46, R114). -/
def MatrixOp.ranges (m : MatrixOp) : List (Nat × Nat) :=
  [(m.a, streamBytes m.k 64 m.fmtA.toNat), (m.b, streamBytes m.k 128 m.fmtB.toNat)]

/-- Scale streams of an M operation with an MX format (R115). -/
def MatrixOp.scales (m : MatrixOp) : List (Nat × Nat) :=
  (if codeMx m.fmtA.toNat then [(m.scaleA, scaleBytes m.k 64 m.fmtA.toNat)] else [])
  ++ (if codeMx m.fmtB.toNat then [(m.scaleB, scaleBytes m.k 128 m.fmtB.toNat)] else [])

/-- All that an M operation streams (R114, R115, R155). -/
def MatrixOp.streams (m : MatrixOp) : List (Nat × Nat) := m.ranges ++ m.scales

/-- The M operation that an MMA starts, from the addresses in its issue cycle (R67). -/
def Core.matrixOp (c : Core) (bank acc : Bool) (fa fb : BitVec 4) (k : BitVec 16) (ga gb : BitVec 4) : MatrixOp :=
  { bank := bank, acc := acc, fmtA := fa, fmtB := fb, k := kSteps k
    a := c.agAddress ga.toNat, b := c.agAddress gb.toNat
    scaleA := c.agAddress (ga.toNat + 1), scaleB := c.agAddress (gb.toNat + 1), address := c.pc, enter := none }

/-- Cycles of an M operation. -/
def MatrixOp.cycles (m : MatrixOp) : Nat := arrayCycles m.k m.fmtA.toNat m.fmtB.toNat

/-- Has the operation retired its last k-step before cycle t (R42)? -/
def MatrixOp.retired (m : MatrixOp) (t : Nat) : Bool :=
  match m.enter with
  | some e => e + m.cycles ≤ t
  | none => false

/-- Is the operation complete, so that a drain may issue in cycle t (R43)? -/
def MatrixOp.complete (m : MatrixOp) (b0 : Bool) (t : Nat) : Bool :=
  match m.enter with
  | some e => e + m.cycles + latMatrix b0 ≤ t
  | none => false

/-- Cycles per row of a drain mode (Table 2.9). -/
def rowCycles (mode : Nat) : Nat := if 3 ≤ mode then 6 else 1

/-- Row width of a drain to scratchpad (R44). -/
def rowWidth (mode fmt : Nat) : Nat :=
  if mode = 1 then 512 else if mode = 2 then (if fmt = 1 || fmt = 2 then 256 else 128) else 3072

/-- Does a drain hold the write path in cycle t (R45)? -/
def DrainOp.holdsPath (d : DrainOp) (t : Nat) : Bool := d.mode ≠ 0 && t < d.issued + 64 * rowCycles d.mode

/-- Does a drain hold the load path in cycle t (R45)? -/
def DrainOp.holdsLoad (d : DrainOp) (t : Nat) : Bool := d.mode = 4 && t < d.issued + 64 * rowCycles d.mode

/-- Has a drain read its last row by cycle t (R43, R44)? -/
def DrainOp.read (d : DrainOp) (t : Nat) : Bool := d.issued + 64 * rowCycles d.mode ≤ t

/-- Have all rows of a drain arrived? Its row number is then 64. -/
def DrainOp.landed (d : DrainOp) : Bool := 64 ≤ d.row

/-- Has a drain nothing left to do in cycle t: all rows arrived, and its paths and its bank free (R44, R45)? -/
def DrainOp.gone (d : DrainOp) (t : Nat) : Bool := d.landed && d.read t

/-- Operations that hold a queue entry (R42). -/
def Core.queued (c : Core) : List MatrixOp := c.mops.filter fun m => !m.retired c.cycle

/-- Is a byte range inside or over a guarded range that holds (R46)? -/
def Core.guarded (c : Core) (b : Int × Int) : Bool :=
  c.queued.any fun m => m.ranges.any fun r => r.2 ≠ 0 && boundsOverlap b (boundsOf r.1 r.2)

/-- The operations of the queue, each with the cycle from which its guarded ranges hold no more: they run one after the other, the
first from cycle t where it has not entered the array (R42, R46). -/
def guardEnds (t : Nat) : List MatrixOp → List (MatrixOp × Nat)
  | [] => []
  | m :: r =>
    let x := m.enter.getD t + m.cycles
    (m, x) :: guardEnds x r

/-- Is a byte range over a guarded range that will still hold in cycle t (R46)? -/
def Core.guardedAt (c : Core) (t : Nat) (b : Int × Int) : Bool :=
  (guardEnds c.cycle c.queued).any fun x => t < x.2 && x.1.ranges.any fun r => r.2 ≠ 0 && boundsOverlap b (boundsOf r.1 r.2)

/-- The cycle from which the ranges of an MMA that issues now hold no more (R42, R46). -/
def Core.guardEnd (c : Core) (m : MatrixOp) : Nat :=
  ((guardEnds c.cycle c.queued).foldl (fun t x => max t x.2) c.cycle) + m.cycles

/-- Is descriptor d (0 to 55) an inbound one? -/
def inboundDesc (d : Nat) : Bool := d < 32

/-- First operation in flight, another descriptor's than `own`, that a range touches (R155); `inboundOnly`
leaves outbound ones out. -/
def Core.blocker (c : Core) (b : Int × Int) (own : Option Nat) (inboundOnly : Bool) : Option Nat :=
  (c.depots.find? fun o => some o.desc ≠ own && (!inboundOnly || inboundDesc o.desc)
    && boundsOverlap b (readDepot o.descriptor).spBounds).map (·.desc)

/-- Cycle in which row r of a drain is visible at its destination (R44). -/
def DrainOp.visibleAt (d : DrainOp) (b0 : Bool) (r : Nat) : Nat := d.issued + r * rowCycles d.mode + latDrain b0

/-- Does a byte range hold bytes of a row of a drain to scratchpad that is not yet visible in cycle t (R44, R50)? -/
def DrainOp.unseen (d : DrainOp) (b0 : Bool) (t : Nat) (b : Int × Int) : Bool :=
  let w := rowWidth d.mode d.fmt.toNat
  d.mode ≠ 0 && (countFrom 0 64).any fun r => t < d.visibleAt b0 r && boundsOverlap b (boundsOf (d.dest + r * w) w)

/-- Does a row of a drain to scratchpad that is to land in a byte range land after cycle t and before cycle `upto` (R44, R46)? -/
def DrainOp.landsIn (d : DrainOp) (b0 : Bool) (t upto : Nat) (b : Int × Int) : Bool :=
  let w := rowWidth d.mode d.fmt.toNat
  d.mode ≠ 0 && (countFrom 0 64).any fun r =>
    t < d.visibleAt b0 r && d.visibleAt b0 r < upto && boundsOverlap b (boundsOf (d.dest + r * w) w)

/-- Is a row of a drain to V on its way to register v in cycle t (R44, R50)? -/
def DrainOp.pending (d : DrainOp) (b0 : Bool) (t v : Nat) : Bool :=
  d.mode = 0 && (countFrom 0 d.count).any fun r => (d.dest + r) % 32 = v && d.issued + r ≤ t && t < d.visibleAt b0 r

/-- Is a read of n bytes in cycle t over a store or a drained row that is not visible by then (R50)? -/
def Core.invisibleAt (c : Core) (b0 : Bool) (t : Nat) (a : Int) (n : Nat) : Bool :=
  (c.stores.any fun st => t < st.visible && boundsOverlap (boundsOf a n) (boundsOf st.address st.length))
  || c.drains.any fun d => d.unseen b0 t (boundsOf a n)

/-- Is an LD or LDX of n bytes over a store or a drained row that is not yet visible (R50)? -/
def Core.overInvisible (c : Core) (b0 : Bool) (a : Int) (n : Nat) : Bool := c.invisibleAt b0 c.cycle a n

/-- Waits of an access to the bounding range of an operation in flight (R155). -/
def Core.blockWait (c : Core) (b : Int × Int) (own : Option Nat) (inboundOnly : Bool) : List Finding :=
  match c.blocker b own inboundOnly with
  | some d => [.wait 2 d]
  | none => []

/-- Is a result for register r still pending (R50): of an operation, or of a row of a drain? -/
def Core.pendingReg (c : Core) (b0 : Bool) (r : Nat) : Bool :=
  c.cycle < c.readyAt r || (8 ≤ r && r < 40 && c.drains.any fun d => d.pending b0 c.cycle (r - 8))

/-- Register hazards of an operation (R50). -/
def Core.registerHazards (c : Core) (b0 : Bool) (o : SlotOp) : List Finding :=
  (if o.reads.any (c.pendingReg b0) then [.hazard 0x60 o.number] else [])
  ++ (if o.writes.any (c.pendingReg b0) then [.hazard 0x61 o.number] else [])

/-- Cycle in which a CMP reads its X operands (R69). -/
def Core.cmpReads (c : Core) (mode a : Nat) (low : BitVec 16) : Nat :=
  let r := max c.cycle (c.readyAt (resX a))
  if mode = 0 then max r (c.readyAt (resX (cmpB low))) else r

/-- Faults of an S operation beyond its encoding. -/
def Core.checkS (c : Core) : SOp → List Finding
  | .loop level _ => if (c.loop level.toNat).trips ≠ 0 then [.halt 0x24 1] else []
  | .cmp _ _ _ mode a low =>
    if c.cycle < c.cmpReads mode.toNat a.toNat low && c.cycle < c.regs.cmpWait then [.halt 0x25 1] else []
  | _ => []

/-- Encoding faults of an operation that its own slot shows (Table 3.14). -/
def SlotOp.encodingFaults (o : SlotOp) : List (Nat × Nat) :=
  (if o.reserved then [(o.number, o.number)] else [])
  ++ (match o with
      | .s (.loop _ trips) => if trips = 0 then [(0x0B, 1)] else []
      | .s (.br _ _ _ _ taken j) => if taken.toNat = 0 || j.toNat < taken.toNat then [(0x0E, 1)] else []
      | .m (.mma _ _ fa fb k ga gb) =>
        if o.reserved then []
        else
          let n := kSteps k
          (if codeInteger fa.toNat != codeInteger fb.toNat then [(0x08, 3)] else [])
          ++ (if ((codeMx fa.toNat || codeMx fb.toNat) && n % 32 ≠ 0)
                || ((fa.toNat = 0xB || fb.toNat = 0xB) && n % 2 ≠ 0) then [(0x09, 3)] else [])
          ++ (if (codeMx fa.toNat && ga.toNat = 15) || (codeMx fb.toNat && gb.toNat = 15) then [(0x0A, 3)] else [])
      | _ => [])

/-- Hazard and faults of the V slot: FP64 occupancy (R37). -/
def Core.checkV (c : Core) (_o : VOp) : List Finding :=
  if c.cycle < c.regs.vFree then [.hazard 0x20 2] else []

/-- Range of a drain to scratchpad: address and length. -/
def drainRange (a mode fmt : Nat) : Nat × Nat := (a, 64 * rowWidth mode fmt)

/-- Hazards, waits and faults of an M operation (R40 to R46, R50, R64, R113, R116, R155). A row is written in the cycle in which it
becomes visible: one that lands in an A or B stream while its guard holds is a write into a guarded range (R46); a scale stream
over a row that is still to land reads before its producer's latency (R50; log entry 58). A ledger-add drain reads row r over the
load path r × 6 cycles after its issue, and is held to what is visible then (R44, R45, R50). -/
def Core.checkM (c : Core) (e : Env) : MOp → List Finding
  | .mma bank acc fa fb k ga gb =>
    let m := c.matrixOp bank acc fa fb k ga gb
    (if 2 ≤ c.queued.length then [.hazard 0x21 3] else [])
    ++ (if c.drains.any fun d => d.bank = bank && !d.read c.cycle then [.hazard 0x22 3] else [])
    ++ (if m.ranges.any fun r => c.drains.any fun d => d.landsIn e.b0 c.cycle (c.guardEnd m) (boundsOf r.1 r.2)
        then [.hazard 0x43 3] else [])
    ++ (if m.scales.any fun r => c.drains.any fun d => d.unseen e.b0 c.cycle (boundsOf r.1 r.2) then [.hazard 0x60 3] else [])
    ++ m.streams.flatMap fun r => c.blockWait (boundsOf r.1 r.2) none true
        ++ (c.readFaults r.1 r.2).map fun f => Finding.halt f 3
  | .drain bank mode fmt _ _ dest _ =>
    (if c.mops.any fun m => m.bank = bank && !m.complete e.b0 c.cycle then [.hazard 0x22 3] else [])
    ++ (if mode = 0 then []
        else
          let r := drainRange (c.agAddress dest.toNat) mode.toNat fmt.toNat
          let w := rowWidth mode.toNat fmt.toNat
          let lands (i : Nat) : Nat := c.cycle + i * rowCycles mode.toNat + latDrain e.b0
          (if c.drains.any fun d => d.holdsPath c.cycle then [.hazard 0x23 3] else [])
          ++ (if (countFrom 0 64).any fun i => c.guardedAt (lands i) (boundsOf (r.1 + i * w) w) then [.hazard 0x43 3] else [])
          ++ (if mode = 4 && (countFrom 0 64).any fun i => c.invisibleAt e.b0 (c.cycle + 6 * i) (r.1 + i * w) w
              then [.hazard 0x44 3] else [])
          ++ c.blockWait (boundsOf r.1 r.2) none false
          ++ (if r.1 % 64 ≠ 0 then [.halt 0x45 3] else [])
          ++ (c.writeFaults r.1 r.2).map fun f => Finding.halt f 3)

/-- Alignment and range of an LD or LDX, of an ST or STX. -/
def Core.checkLoad (c : Core) (b0 : Bool) (a : Int) (n unit : Nat) : List Finding :=
  (if c.drains.any fun d => d.holdsLoad c.cycle then [.hazard 0x23 4] else [])
  ++ (if c.overInvisible b0 a n then [.hazard 0x44 4] else [])
  ++ c.blockWait (boundsOf a n) none true
  ++ (if a % unit ≠ 0 then [.halt 0x45 4] else [])
  ++ (c.readFaults a n).map fun f => Finding.halt f 4

/-- As `checkLoad` for a store; one over a drained row that is not yet visible writes before an earlier write has
completed (R50). In a shadow window R121 is judged at the resolution cycle (R136). -/
def Core.checkStore (c : Core) (b0 shadow : Bool) (a : Int) (n unit : Nat) : List Finding :=
  (if c.drains.any fun d => d.holdsPath c.cycle then [.hazard 0x23 5] else [])
  ++ (if c.drains.any fun d => d.unseen b0 c.cycle (boundsOf a n) then [.hazard 0x61 5] else [])
  ++ (if c.guarded (boundsOf a n) then [.hazard 0x43 5] else [])
  ++ c.blockWait (boundsOf a n) none false
  ++ (if a % unit ≠ 0 then [.halt 0x45 5] else [])
  ++ (let f := c.accessFaults a n
      let breach := match c.regionAt a.toNat n with
        | none => false
        | some r => r.mode = .held || r.mode = .reserved || r.fill || (!shadow && c.writeBreach a.toNat n false)
      (f ++ (if f.isEmpty && breach then [0x42] else [])).map fun x => Finding.halt x 5)

/-- Index of a WDP's descriptor among the 56 (R149). -/
def wdpIndex (outbound : Bool) (desc : BitVec 5) : Nat := if outbound then 32 + desc.toNat else desc.toNat

/-- Waits and faults of a Y operation (R65, R154, Table 2.10). -/
def Core.checkY (c : Core) : YOp → List Finding
  | .wwb _ bit =>
    if c.waybill.getLsbD bit.toNat && Table.look c.waybillAt 0 bit.toNat + latWait ≤ c.cycle then []
    else [.wait 1 bit.toNat]
  | .wdp _ outbound desc =>
    let d := wdpIndex outbound desc
    if !c.issuedInStage.getLsbD d then [.halt 0x49 6]
    else if c.done.getLsbD d && Table.look c.doneAt 0 d + latWait ≤ c.cycle then []
    else [.wait 2 d]

/-- Hazards and waits of a DLD or DST (R46, R50, R155): descriptor d of the active bank. A DST reads no row of a drain
before it is visible (log entry 58). -/
def Core.depotWaits (c : Core) (b0 : Bool) (d : Nat) : List Finding :=
  let x := readDepot (c.descriptor c.bank d)
  if !x.valid || x.reserved (inboundDesc d) then []
  else c.blockWait x.spBounds (some d) (!inboundDesc d)
    ++ (if inboundDesc d && c.guarded x.spBounds then [.wait 2 d] else [])
    ++ (if !inboundDesc d && c.drains.any fun o => o.unseen b0 c.cycle x.spBounds then [.hazard 0x60 5] else [])

/-- Everything the core itself can say against an operation; the R152 checks of a DLD or DST that need the
device's memory map are made beside it. -/
def Core.checkSlot (c : Core) (e : Env) (shadow : Bool) (o : SlotOp) : List Finding :=
  c.registerHazards e.b0 o ++ (match o with
    | .s o => c.checkS o
    | .v o => c.checkV o
    | .m o => c.checkM e o
    | .l (.ld _ g off) => c.checkLoad e.b0 (c.operandAddress g off 64) 512 64
    | .l (.ldx _ g off) => c.checkLoad e.b0 (c.operandAddress g off 8) 8 8
    | .l (.dld desc _ _) => c.depotWaits e.b0 desc.toNat
    | .t (.st _ g off) => c.checkStore e.b0 shadow (c.operandAddress g off 64) 512 64
    | .t (.stx _ g off) => c.checkStore e.b0 shadow (c.operandAddress g off 8) 8 8
    | .t (.dst desc _ _) => c.depotWaits e.b0 (32 + desc.toNat)
    | .y o => c.checkY o)

/-- Rows of a drain to scratchpad overlap a byte range. -/
def Core.drainOver (c : Core) (mode : BitVec 3) (fmt : BitVec 4) (dest : BitVec 5) (b : Int × Int) : Bool :=
  let r := drainRange (c.agAddress dest.toNat) mode.toNat fmt.toNat
  mode ≠ 0 && boundsOverlap b (boundsOf r.1 r.2)

/-- What an M operation and another operation of its own bundle do to each other, the drain taking its paths and the MMA its
guarded ranges in their issue cycle (R45, R46, R50; log entry 58). -/
def Core.clash (c : Core) (m : MOp) (o : SlotOp) : List Finding :=
  match m, o with
  | .drain _ mode _ _ _ _ _, .l (.ld _ _ _) => if mode.toNat = 4 then [.hazard 0x23 4] else []
  | .drain _ mode _ _ _ _ _, .l (.ldx _ _ _) => if mode.toNat = 4 then [.hazard 0x23 4] else []
  | .drain _ mode _ _ _ _ _, .t (.st _ _ _) => if mode = 0 then [] else [.hazard 0x23 5]
  | .drain _ mode _ _ _ _ _, .t (.stx _ _ _) => if mode = 0 then [] else [.hazard 0x23 5]
  | .drain _ mode fmt _ _ dest _, .t (.dst desc _ _) =>
    if c.drainOver mode fmt dest (readDepot (c.descriptor c.bank (32 + desc.toNat))).spBounds then [.hazard 0x60 5] else []
  | .mma bank acc fa fb k ga gb, .l (.dld desc _ _) =>
    if guards bank acc fa fb k ga gb (readDepot (c.descriptor c.bank desc.toNat)).spBounds then [.wait 2 desc.toNat] else []
  | .mma bank acc fa fb k ga gb, .t (.st _ g off) =>
    if guards bank acc fa fb k ga gb (boundsOf (c.operandAddress g off 64) 512) then [.hazard 0x43 5] else []
  | .mma bank acc fa fb k ga gb, .t (.stx _ g off) =>
    if guards bank acc fa fb k ga gb (boundsOf (c.operandAddress g off 8) 8) then [.hazard 0x43 5] else []
  | _, _ => []
where
  guards (bank acc : Bool) (fa fb : BitVec 4) (k : BitVec 16) (ga gb : BitVec 4) (b : Int × Int) : Bool :=
    (c.matrixOp bank acc fa fb k ga gb).ranges.any fun r => r.2 ≠ 0 && boundsOverlap b (boundsOf r.1 r.2)

/-- What the operations of one bundle do to each other. -/
def Core.pairFindings (c : Core) (ops : List SlotOp) : List Finding :=
  ops.flatMap fun o => match o with
    | .m m => ops.flatMap (c.clash m)
    | _ => []

/-- Scoreboard numbers of the accumulator banks, beside those of the registers. -/
def resA (bank : Bool) : Nat := 44 + flag bank

/-- Registers and banks whose contents an operation takes, in number order of the scoreboard: what it reads at issue, and the
K and X registers that a BR and a CMP read later. -/
def SlotOp.takes (o : SlotOp) : List Nat :=
  o.reads ++ (match o with
    | .s (.cmp _ _ _ mode a low) => resX a.toNat :: (if mode = 0 then [resX (cmpB low)] else [])
    | .s (.br k _ _ _ _ _) => [resK k.toNat]
    | .m (.mma bank acc _ _ _ _ _) => if acc then [resA bank] else []
    | .m (.drain bank _ _ _ _ _ _) => [resA bank]
    | _ => [])

/-- Does an operation find a check error in a register or an accumulator bank (R82, code 0xA5)? DEDUCED (log entry 19): the
error shows when the bundle that uses the contents issues. -/
def Core.registerError (c : Core) (o : SlotOp) : Bool :=
  o.takes.any fun r => if 44 ≤ r then c.accErrors.getLsbD (r - 44) else c.regs.errors.contains r

end Sys2Proof.Machine
end

