-- ==== Sys2Proof/Machine/Array.lean ====
section
/-! DEFINITION. The matrix array: operand streams, accumulation, bank conflicts, and the rows of a drain
(R39 to R44, R96 to R98, R101 to R104, R111, R114, R115, R480). -/

namespace Sys2Proof.Machine

/-- Element s of row or column i of an operand read as one number, n rows or columns per k-step (R114). -/
def streamElement (stream n fmt s i : Nat) : Nat :=
  let e := codeBits fmt
  let offset := if codeMx fmt then (n * (s / 32) + i) * 32 * e + s % 32 * e else (n * s + i) * e
  stream / 2 ^ offset % 2 ^ e

/-- Scale byte of row or column i in the panel of k-step s (R115); 127 for a format without scales. -/
def streamScale (scales n fmt s i : Nat) : Nat :=
  if codeMx fmt then scales / 2 ^ (8 * (n * (s / 32) + i)) % 256 else 127

/-- The k values of row or column i. -/
def streamRow (stream scales n fmt k i : Nat) : List Num :=
  (countFrom 0 k).map fun s => elementValue fmt (streamScale scales n fmt s i) (streamElement stream n fmt s i)

/-- The k integers of row or column i. -/
def streamInts (stream n fmt k i : Nat) : List Int :=
  (countFrom 0 k).map fun s => signed (codeBits fmt) (streamElement stream n fmt s i)

/-- Exact sum of products; the first product starts it, so that a zero keeps its sign (R84, R96, R98). -/
def sumProducts : List Num → List Num → Option Num → Num
  | a :: as, b :: bs, none => sumProducts as bs (some (Num.mul a b))
  | a :: as, b :: bs, some t => sumProducts as bs (some (Num.add t (Num.mul a b)))
  | _, _, some t => t
  | _, _, none => .fin false 0 0

/-- Accumulate groups of g k-steps into an FP32 word (R96). -/
def accumulate (g : Nat) : Nat → Nat → List Num → List Num → Nat
  | 0, c, _, _ => c
  | n + 1, c, a, b =>
    if a.isEmpty then c
    else
      let sum := sumProducts (a.take g) (b.take g) none
      accumulate g n (FloatFmt.fp32.round .nearest (Num.add (FloatFmt.fp32.read c) sum)) (a.drop g) (b.drop g)

/-- Sum of integer products. -/
def sumInts : List Int → List Int → Int
  | a :: as, b :: bs => a * b + sumInts as bs
  | _, _ => 0

/-- Accumulate integer groups of 32: the low 32 bits, and the first group that leaves the INT32 range (R96, R97). -/
def accumulateInts : Nat → Nat → Nat → Option Nat → List Int → List Int → Nat × Option Nat
  | 0, _, c, o, _, _ => (c, o)
  | n + 1, i, c, o, a, b =>
    if a.isEmpty then (c, o)
    else
      let v := signed 32 c + sumInts (a.take 32) (b.take 32)
      let out := v < -(2 ^ 31) || (2 : Int) ^ 31 ≤ v
      accumulateInts n (i + 1) (wrap 32 v) (if o.isNone && out then some i else o) (a.drop 32) (b.drop 32)

/-- k-steps per group for a pair of floating-point operands (R96). -/
def groupSize (fa fb : Nat) : Nat := if fa ≤ 2 || fb ≤ 2 then 1 else 32

/-- The accumulator words of the operation's bank, in order, and the first integer group that overflowed
in any element. -/
def Core.multiply (c : Core) (m : MatrixOp) : List Nat × Option Nat :=
  let fa := m.fmtA.toNat
  let fb := m.fmtB.toNat
  let a := leNat (c.readScratch m.a (streamBytes m.k 64 fa))
  let b := leNat (c.readScratch m.b (streamBytes m.k 128 fb))
  let sa := leNat (c.readScratch m.scaleA (scaleBytes m.k 64 fa))
  let sb := leNat (c.readScratch m.scaleB (scaleBytes m.k 128 fb))
  let old (i j : Nat) : Nat := if m.acc then (c.accWord m.bank i j).toNat else 0
  if codeInteger fa then
    let cols := (countFrom 0 128).map fun j => streamInts b 128 fb m.k j
    let results := (countFrom 0 64).flatMap fun i =>
      let row := streamInts a 64 fa m.k i
      (cols.zip (countFrom 0 128)).map fun cj =>
        accumulateInts m.k 0 (old i cj.2) none row cj.1
    (results.map (·.1), results.foldl (fun o r => match o, r.2 with
      | none, x => x
      | some u, some v => some (min u v)
      | some u, none => some u) none)
  else
    let cols := (countFrom 0 128).map fun j => streamRow b sb 128 fb m.k j
    let g := groupSize fa fb
    ((countFrom 0 64).flatMap fun i =>
      let row := streamRow a sa 64 fa m.k i
      (cols.zip (countFrom 0 128)).map fun cj => accumulate g m.k (old i cj.2) row cj.1, none)

/-- Entries of a bank's words from key `k`, zeros left out. -/
def accEntries : Nat → List Nat → Table (BitVec 32)
  | _, [] => []
  | k, v :: r => if v % 2 ^ 32 = 0 then accEntries (k + 1) r else (k, BitVec.ofNat 32 v) :: accEntries (k + 1) r

/-- Replace all words of a bank. -/
def Core.setBankWords (c : Core) (bank : Bool) (words : List Nat) : Core :=
  let a0 := c.acc.filter fun e => e.1 < 8192
  let a1 := c.acc.filter fun e => !(e.1 < 8192)
  { c with acc := if bank then a0 ++ accEntries 8192 words else accEntries 0 words ++ a1 }

/-- Units (group and unit number) that a stream reads in the i-th of its cycles: those of the copies read, and none for a
plain line that reads as zero (R109, R114, R118, R119). -/
def Core.streamUnits (c : Core) (base group i : Nat) : List (Nat × Nat) :=
  if group = 0 then []
  else
    let lo := base + i * group
    match c.regionAt lo group with
    | none => []
    | some r =>
      (countFrom (lineOf lo) (lineOf (lo + group - 1) + 1 - lineOf lo)).filterMap fun line =>
        if r.mode = .plain && !Table.look c.written false line then none
        else
          let a := c.readAddress r line
          some (powerGroup a, scratchUnit a)

/-- Cycles in which the operation works on a panel of 32 k-steps. -/
def MatrixOp.panelCycles (m : MatrixOp) : Nat := 32 * m.cycles / m.k

/-- Units that the operation's streams read in cycle i after it enters the array (R114, R115). -/
def Core.unitsAt (c : Core) (m : MatrixOp) (i : Nat) : List (Nat × Nat) :=
  let n := m.cycles
  let p := m.panelCycles
  let sa := if codeMx m.fmtA.toNat && i % p < 4 then c.streamUnits (m.scaleA + i / p * 64) 16 (i % p) else []
  let sb := if codeMx m.fmtB.toNat && 4 ≤ i % p && i % p < 12 then
      c.streamUnits (m.scaleB + i / p * 128) 16 (i % p - 4) else []
  c.streamUnits m.a (streamBytes m.k 64 m.fmtA.toNat / n) i ++ c.streamUnits m.b (streamBytes m.k 128 m.fmtB.toNat / n) i
    ++ sa ++ sb

/-- Are two different units of one bank among these (R111)? -/
def unitConflict : List (Nat × Nat) → Bool
  | [] => false
  | u :: r => r.any (fun w => w ≠ u && w.1 = u.1 && w.2 % 6 = u.2 % 6) || unitConflict r

/-- The first conflicting cycle from cycle i on, n cycles at most (R111). -/
def Core.conflict (c : Core) (m : MatrixOp) : Nat → Nat → Option Nat
  | 0, _ => none
  | n + 1, i => if unitConflict (c.unitsAt m i) then some i else c.conflict m n (i + 1)

/-- A halt takes its place before the first of a list that is detected later, or in the same cycle with a higher code. -/
def insertHalt (h : HaltInfo) : List HaltInfo → List HaltInfo
  | [] => [h]
  | o :: r => if h.cycle < o.cycle || (h.cycle = o.cycle && h.code < o.code) then h :: o :: r else o :: insertHalt h r

/-- Record a halt that takes effect at the first bundle issue after its detection (R81, R97, R104, R111). -/
def Core.defer (c : Core) (h : HaltInfo) : Core := { c with deferred := insertHalt h c.deferred }

/-- Cycle after entry in which group i of 32 k-steps has retired. DESIGN CHOICE (log entry 60): an overflow of the group is detected
then, not L_mm cycles later (R97 says 'detection' alone). -/
def MatrixOp.groupCycle (m : MatrixOp) (i : Nat) : Nat :=
  let k := min m.k (32 * (i + 1))
  k * m.cycles / m.k - 1

/-- Words that the operation's streams find in error, with the cycle after entry in which each is read (R114, R115, R125). -/
def Core.streamErrors (c : Core) (m : MatrixOp) : List (Nat × Nat) :=
  let p := m.panelCycles
  let operand (base length : Nat) : List (Nat × Nat) :=
    (c.badWords base length).map fun w => (w.1 / (length / m.cycles), w.2)
  let scale (fmt base per first : Nat) : List (Nat × Nat) :=
    (c.badWords base (scaleBytes m.k per fmt)).map fun w => (w.1 / per * p + first + w.1 % per / 16, w.2)
  operand m.a (streamBytes m.k 64 m.fmtA.toNat) ++ operand m.b (streamBytes m.k 128 m.fmtB.toNat)
    ++ (if codeMx m.fmtA.toNat then scale m.fmtA.toNat m.scaleA 64 0 else [])
    ++ (if codeMx m.fmtB.toNat then scale m.fmtB.toNat m.scaleB 128 4 else [])

/-- A detection takes its place among those to come, by its cycle. -/
def insertError (x : HaltInfo × Nat) : List (HaltInfo × Nat) → List (HaltInfo × Nat)
  | [] => [x]
  | y :: r => if x.1.cycle < y.1.cycle then x :: y :: r else y :: insertError x r

/-- The detections that an operation which enters the array in cycle e is to make (R125). -/
def Core.expectErrors (c : Core) (m : MatrixOp) (e : Nat) : Core :=
  let expect (w : Nat × Nat) : HaltInfo × Nat := (⟨0xA1, 3, c.bank, m.address, false, e + w.1⟩, w.2)
  { c with arrayErrors := (c.streamErrors m).foldl (fun l w => insertError (expect w) l) c.arrayErrors }

/-- The operation streams through the array from its entry cycle e: the bank gets its words, and a conflict, an overflow and
the errors that its streams find are recorded with their cycles (R96, R97, R111, R125). An operation that finds an error goes on
too: its results are reclaimed with the stage. -/
def Core.runArray (c : Core) (m : MatrixOp) (e : Nat) : Core :=
  let (words, overflow) := c.multiply m
  let c' := c.setBankWords m.bank words
  let bit := BitVec.ofNat 2 (2 ^ flag m.bank)
  let kinds := if codeInteger m.fmtA.toNat then c'.accInt ||| bit else c'.accInt &&& ~~~bit
  let c' := { c' with accInt := kinds, accErrors := c'.accErrors &&& ~~~bit }
  let c' := c'.expectErrors m e
  let c' := match c.conflict m m.cycles 0 with
    | some i => c'.defer ⟨0x26, 3, c.bank, m.address, false, e + i⟩
    | none => c'
  match overflow with
  | some i => c'.defer ⟨0x81, 3, c.bank, m.address, false, e + m.groupCycle i⟩
  | none => c'

/-- Value of an accumulator word for conversions (R101, R480): its integer value where the bank's last M
operation was an integer one, else its FP32 value. -/
def accValue (isInt : Bool) (w : BitVec 32) : Num :=
  if isInt then Num.ofInt w.toInt else FloatFmt.fp32.read w.toNat

/-- The words of row r of a drain. -/
def DrainOp.rowWords (d : DrainOp) (r : Nat) : List (BitVec 32) :=
  (countFrom (128 * r) 128).map (Table.look d.words 0)

/-- The bytes of a row in mode 1 or 2 (R44, R90, R91, R94). -/
def DrainOp.rowBytes (d : DrainOp) (e : Env) (r : Nat) : Bytes :=
  if d.mode = 2 then
    let width := codeBits d.fmt.toNat / 8
    (mapLanes (fun j w => convertTo (e.rounding d.stochastic d.index (128 * r + j)) d.fmt.toNat
        (accValue d.isInt (BitVec.ofNat 32 w))) 0 ((d.rowWords r).map (·.toNat))).flatMap fun v => leBytes v width
  else (d.rowWords r).flatMap fun w => leBytes w.toNat 4

/-- The ledgers of a row, mode 3 or 4, with the old ledgers for mode 4 (R101, R102, R104). -/
def DrainOp.rowLedgers (d : DrainOp) (e : Env) (r : Nat) (old : Bytes) : List LedgerResult :=
  mapLedgers (ledgerBase d.window e.lift) 0 (d.rowWords r)
where
  mapLedgers (w : Int) : Nat → List (BitVec 32) → List LedgerResult
    | _, [] => []
    | j, x :: rest =>
      let l := toLedger w (accValue d.isInt x)
      let l := if d.mode = 4 && !l.spill then addLedger (field old (24 * j) 24) l.value else l
      l :: mapLedgers w (j + 1) rest

end Sys2Proof.Machine
end

