-- ==== Sys2Proof/Machine/Cycle.lean ====
section
/-! DEFINITION. The end of one core cycle: lateness, the region counter, slot classes and the core's
observation counters (R52, R70, R74, R426 to R434). -/

namespace Sys2Proof.Machine

/-- What a core's operations read of the device. -/
def envOf (s : State) (n : Nat) : Env :=
  { core := n, b0 := isB0 s, interlock := interlockMode s, lift := odGet s (od 0x2040 1)
    seed := odGet s (od 0x2040 4), stage := s.stage.number.toNat, dev := logicalAddress s % 2 ^ 20 }

/-- Is a stage running and not yet in its rest? One that its device did not start is not (R24). -/
def inStage (s : State) : Bool := s.stage.phase = .stage && !s.stage.unready

/-- May traffic of the stage still move: from its start to action 2 of its post (R130), where the device has started it
(R24)? -/
def stageTraffic (s : State) : Bool :=
  (s.stage.phase = .stage || s.stage.phase = .rest || s.stage.phase = .voted) && !s.stage.unready

/-- Slot class of slot i (0 S to 5 Y) in the cycle that ends, as the event that counts it (Tables 17.4, 17.5):
0x01 retired, 0x02 wasted, 0x03 starved-front, 0x04 starved-back, 0x05 idle; 0 in a rest cycle. -/
def slotClass (s : State) (c : Core) (i : Nat) : Nat :=
  if !inStage s then 0
  else if c.state = .halted then 0x02
  else if c.state = .atPost && c.issued ≠ c.cycle + 1 then 0x05
  else if !c.entered then 0x03
  else if (match c.region with | some g => g.resolved && c.cycle < g.discardUntil | none => false) then 0x02
  else if c.stall.isSome then 0x04
  else if c.issued = c.cycle + 1 && bitAt c.lastSlots i then 0x01
  else 0x05

/-- Does the array retire a k-step of an operation in cycle t (R42, Table 2.8)? -/
def MatrixOp.retiresAt (m : MatrixOp) (t : Nat) : Bool :=
  match m.enter with
  | some e => e ≤ t && t < e + m.cycles && (t - e) * m.k / m.cycles < (t - e + 1) * m.k / m.cycles
  | none => false

/-- Value of a core event in the cycle that ends (Table 17.4); `seen` is what was noted in it. -/
def coreEventValue (s : State) (c : Core) (e q seen : Nat) : Nat :=
  let slots (cls : Nat) : Nat := ((countFrom 0 6).filter fun i => bitAt q i && slotClass s c i = cls).length
  match e with
  | 0x00 => 1
  | 0x01 => 0
  | 0x02 => slots 0x02
  | 0x03 => slots 0x03
  | 0x04 => slots 0x04
  | 0x05 => slots 0x05
  | 0x07 => flag (inStage s && c.stall.isSome)
  | 0x08 => flag (c.mops.any fun m => m.retiresAt c.cycle)
  | 0x09 => c.queued.length
  | 0x0A => match c.region with | some g => g.hold.length | none => 0
  | 0x0D => c.depots.length
  | 0x0F => popCount (c.outer.foldl (fun m b => m ||| b.2.toNat) 0) 4
  | 0x12 => flag (s.stage.phase = .rest || s.stage.phase = .voted || s.stage.phase = .verdict)
  | _ => seen

/-- The core's counters take one cycle (R426). -/
def observeCore (s : State) (n : Nat) (c : Core) : State :=
  (enabledCounters s).foldl (fun s iw =>
    if coreCounters n ≤ iw.1 && iw.1 < coreCounters n + 8 then
      let (s, seen) := takeAccum s iw.1 255
      countCycle s iw.1 iw.2 (coreEventValue s c (cfgEvent iw.2) (cfgQualifier iw.2) seen)
    else s) (forgetDisabled s (coreCounters n) 8)

/-- A core's registers of time advance by one cycle: the region counter counts cycles that are not stalls (R70). -/
def Core.advance (c : Core) : Core :=
  { c with
    cycle := c.cycle + 1
    region := c.region.map fun g => if c.stall.isSome then g else { g with counter := g.counter + 1 } }

/-- A halt that waits for the core's next bundle takes effect in its detection cycle where the core issues none
any more: it is HALTED or AT POST, or its stage is over (R79, R240). -/
def settleDeferred (s : State) (n : Nat) : State :=
  let c := coreOf s n
  if c.state = .running && inStage s then s
  else
    let due := c.deferred.takeWhile fun d => d.cycle ≤ c.cycle
    due.foldl (fun s d => takeHalt s n d) (modCoreOf s n fun c => { c with deferred := c.deferred.drop due.length })

/-- A scratchpad read of logical core n found a mismatch (R125): the detection is counted and its word will be
repaired at the post (R126). -/
def noteScratchError (s : State) (n word : Nat) : State :=
  let s := odSet s (od (0x3000 + n) 0x22) word
  let s := odAdd s (od (0x3000 + n) 0x21) 1
  modCoreOf s n fun c => { c with repairs := c.repairs ++ [word] }

/-- The reads of the array in which a word's mismatch shows by now: each halts the core in its own cycle (R79, R125). -/
def settleArray (s : State) (n : Nat) : State :=
  let c := coreOf s n
  let due := c.arrayErrors.takeWhile fun x => x.1.cycle ≤ c.cycle
  due.foldl (fun s x => takeHaltAt (noteScratchError s n x.2) n x.1 (some (siteWord x.2)))
    (modCoreOf s n fun c => { c with arrayErrors := c.arrayErrors.drop due.length })

/-- Row r of a ledger drain in the cycle in which it is read (R44, R101, R102, R104, R125): its ledgers wait to become
visible, a spill is flagged and halt 0x80 recorded, and a failed read of the old ledgers halts the core. -/
def readLedgers (s : State) (n : Nat) (d : DrainOp) (r : Nat) : State :=
  let c := coreOf s n
  let a := d.dest + r * rowWidth d.mode d.fmt.toNat
  let note (b : Option Bytes) (x : DrainOp) : DrainOp :=
    if x.issued = d.issued && 3 ≤ x.mode then { x with ledgers := x.ledgers ++ [(r, b)] } else x
  match if d.mode = 4 then c.readError a 3072 else none with
  | some w =>
    let s := noteScratchError (modCoreOf s n fun c => { c with drains := c.drains.map (note none) }) n w
    takeHaltAt s n ⟨0xA2, 3, c.bank, d.address, false, c.cycle⟩ (some (siteWord w))
  | none =>
    let l := d.rowLedgers (envOf s n) r (c.readScratch a 3072)
    let b := l.flatMap fun x => leBytes x.value 24
    let s := modCoreOf s n fun c => { c with drains := c.drains.map (note (some b)) }
    if l.any (·.spill) then
      modCoreOf (noteSpill s (l.any (·.nonFinite))) n fun c => c.defer ⟨0x80, 3, c.bank, d.address, false, c.cycle⟩
    else s

/-- The ledger drain that reads a row in this cycle, with the row (R44). -/
def Core.ledgerRow (c : Core) : Option (DrainOp × Nat) :=
  (c.drains.find? fun d => 3 ≤ d.mode && !d.read c.cycle && d.issued ≤ c.cycle && (c.cycle - d.issued) % 6 = 0).map
    fun d => (d, (c.cycle - d.issued) / 6)

/-- What a cycle of logical core n does beside its bundle: a ledger row is read, and the array's reads find their errors. -/
def cycleReads (s : State) (n : Nat) : State :=
  let s := match (coreOf s n).ledgerRow with
    | some (d, r) => readLedgers s n d r
    | none => s
  settleArray s n

/-- The address of the join that comes a cycle later than its region counter reaching N, on an interlock core (R70,
R73). -/
def joinLate (s : State) (c : Core) : Option Nat :=
  match c.region with
  | some g => if interlockMode s && c.stall.isNone && g.n < g.counter then some (g.branch + g.j) else none
  | none => none

/-- One cycle of logical core n ends. Each stalled cycle, and each by which a join comes late, adds one to lateness
(R52, R70, R434). -/
def coreCycle (s : State) (n : Nat) : State :=
  let c := coreOf s n
  let s := observeCore s n c
  let s := match c.stall with
    | some w => if inStage s && c.state = .running then addLateness s n 1 w.cause w.resource else s
    | none => match joinLate s c with
      | some join => if inStage s && c.state = .running then addLatenessAt s n 1 6 0 join else s
      | none => s
  settleDeferred (cycleReads (modCoreOf (latchCore s n) n Core.advance) n) n

/-- The core's next issue comes in a cycle in which no bundle has issued yet (log entry 16). -/
def freshCycle (s : State) (n : Nat) : State :=
  let c := coreOf s n
  if c.cycle < c.issued then coreCycle s n else s

end Sys2Proof.Machine
end

