-- ==== Sys2Proof/Machine/Effects.lean ====
section
/-! DEFINITION. What each slot operation does when its bundle issues (R35, R36, R58, R60 to R67, R72, R94,
R100, R118 to R122, R151 to R154). `pre` is the core as it stood before the bundle (R58). -/

namespace Sys2Proof.Machine

/-- An X register gets a result, readable `lat` cycles after the issue (R48). -/
def Core.resultX (c : Core) (d lat : Nat) (v : BitVec 64) : Core :=
  (c.setX d v).setReady (resX d) (c.cycle + lat)

/-- A V register gets a result. -/
def Core.resultV (c : Core) (d lat : Nat) (v : BitVec 4096) : Core :=
  (c.setV d v).setReady (resV d) (c.cycle + lat)

/-- Operand of an ADDI, MOVI or SHLI: imm24 sign-extended (Table 3.4). -/
def imm64 (imm : BitVec 24) : BitVec 64 := imm.signExtend 64

/-- Shift count of the scalar shifts: bits [5:0] (Table 3.5). -/
def shiftCount (v : BitVec 64) : Nat := v.toNat % 64

/-- STG's value by sel (Table 3.4). -/
def stgValue (e : Env) (pre : Core) (sel : Nat) : BitVec 64 :=
  match sel with
  | 0 => BitVec.ofNat 64 e.stage
  | 1 => pre.parameter.setWidth 64
  | 2 => BitVec.ofNat 64 e.core
  | _ => BitVec.ofNat 64 e.dev

/-- S-slot effects (Table 3.5). BR's region is opened by the issue itself. -/
def Core.effectS (c : Core) (e : Env) (pre : Core) : SOp → Core
  | .add d a b => c.resultX d.toNat latScalar (pre.x a.toNat + pre.x b.toNat)
  | .sub d a b => c.resultX d.toNat latScalar (pre.x a.toNat - pre.x b.toNat)
  | .and d a b => c.resultX d.toNat latScalar (pre.x a.toNat &&& pre.x b.toNat)
  | .or d a b => c.resultX d.toNat latScalar (pre.x a.toNat ||| pre.x b.toNat)
  | .xor d a b => c.resultX d.toNat latScalar (pre.x a.toNat ^^^ pre.x b.toNat)
  | .shl d a b => c.resultX d.toNat latScalar (pre.x a.toNat <<< shiftCount (pre.x b.toNat))
  | .shr d a b => c.resultX d.toNat latScalar (pre.x a.toNat >>> shiftCount (pre.x b.toNat))
  | .sar d a b => c.resultX d.toNat latScalar ((pre.x a.toNat).sshiftRight (shiftCount (pre.x b.toNat)))
  | .mul d a b => c.resultX d.toNat latMul (pre.x a.toNat * pre.x b.toNat)
  | .mov d a _ => c.resultX d.toNat latScalar (pre.x a.toNat)
  | .addi d a imm => c.resultX d.toNat latScalar (pre.x a.toNat + imm64 imm)
  | .movi d _ imm => c.resultX d.toNat latScalar (imm64 imm)
  | .shli d a imm => c.resultX d.toNat latScalar (pre.x a.toNat <<< (imm.toNat % 64))
  | .cmp k rel type mode a low =>
    let read := pre.cmpReads mode.toNat a.toNat low
    let c := (c.setK k.toNat (cmpResult pre rel.toNat type.toNat mode.toNat a.toNat low)).setReady (resK k.toNat) (read + 1)
    if pre.cycle < read then { c with regs := { c.regs with cmpWait := read } } else c
  | .br _ _ _ _ _ _ => c
  | .loop level trips =>
    { c with loops := Table.put c.loops LoopLevel.reset level.toNat ⟨trips, 0, pre.pc + 1⟩ }
  | .agb g a imm useX =>
    let x : BitVec 24 := if useX then (pre.x a.toNat).setWidth 24 else 0
    c.setAg g.toNat { c.ag g.toNat with base := imm + x }
  | .ags g level stride =>
    let a := c.ag g.toNat
    c.setAg g.toNat (match level.toNat with
      | 0 => { a with stride0 := stride }
      | 1 => { a with stride1 := stride }
      | 2 => { a with stride2 := stride }
      | _ => { a with stride3 := stride })
  | .csrc n source => c.setC n.toNat { c.counter n.toNat with source := source }
  | .cadd n imm => c.setC n.toNat { c.counter n.toNat with value := (c.counter n.toNat).value + imm.signExtend 32 }
  | .crd d n => c.resultX d.toNat latScalar ((pre.counter n.toNat).value.setWidth 64)
  | .stg d sel => c.resultX d.toNat latScalar (stgValue e pre sel.toNat)

/-- An FP64 operation occupies the vector unit for 2 cycles (R37), and a stochastic operation takes the next
index (R94). -/
def Core.vectorIssue (c : Core) (pre : Core) (o : VOp) : Core :=
  { c with regs := { c.regs with
    vFree := if o.occupies then pre.cycle + 2 else c.regs.vFree
    stoch := if o.stochastic then c.regs.stoch + 1 else c.regs.stoch } }

/-- V-slot effects (Table 3.7). -/
def Core.effectV (c : Core) (e : Env) (pre : Core) (o : VOp) : Core :=
  let lat := o.latency e.b0
  let c := c.vectorIssue pre o
  match o with
  | .imm t d imm =>
    let code := typeCode t.toNat
    c.resultV d.toNat lat (ofLanes code (List.replicate (laneCount code) (imm.toNat % 2 ^ codeBits code)))
  | .lane op f =>
    if op = .vred then
      c.resultX (f.d.toNat % 8) lat (reduceRegister (typeCode f.type.toNat) (f.b.toNat % 4) (pre.v f.a.toNat))
    else if op = .vpack && codeMx f.fmt.toNat then
      let st := op.rounds f.type.toNat && f.rnd.toNat = 1
      let p := packRegister e st pre.regs.stoch (typeCode f.type.toNat) f.fmt.toNat (pre.v f.a.toNat)
      let scales := setLowBytes (Config.packUpper (pre.v f.b.toNat)) p.2
      if f.d = f.b then c.resultV f.d.toNat lat (Config.packBoth p.1 scales)
      else (c.resultV f.d.toNat lat p.1).resultV f.b.toNat lat scales
    else c.resultV f.d.toNat lat (laneResult e pre op f)

/-- Events of a kind are consumed: counters with that source step (R35). -/
def Core.stepCounters (c : Core) (source : Nat) : Core :=
  [0, 1, 2, 3].foldl (fun c i =>
    let k := c.counter i
    if k.source.toNat = source then c.setC i { k with value := k.value + 1 } else c) c

/-- A branch is unresolved: the core is in a shadow window (R71). -/
def Core.inShadow (c : Core) : Bool := match c.region with
  | some g => !g.resolved
  | none => false

/-- A wait's clear consumes the bit (R65, R154). -/
def Core.consume (c : Core) (isDone : Bool) (i : Nat) : Core :=
  if isDone then
    { c with done := c.done &&& ~~~(BitVec.ofNat 56 (2 ^ i)), issuedInStage := c.issuedInStage &&& ~~~(BitVec.ofNat 56 (2 ^ i)) }
  else { c with waybill := c.waybill &&& ~~~(BitVec.ofNat 1024 (2 ^ i)) }

/-- Change the open branch region. -/
def Core.modRegion (c : Core) (f : BranchRegion → BranchRegion) : Core := { c with region := c.region.map f }

/-- Y-slot effects: the bit waited on is cleared in the release cycle, in a shadow window at the resolution
cycle (R65, R72). -/
def Core.effectY (c : Core) (shadow : Bool) (o : YOp) : Core :=
  let (clear, isDone, i) := match o with
    | .wwb clear bit => (clear, false, bit.toNat)
    | .wdp clear outbound desc => (clear, true, wdpIndex outbound desc)
  if !clear then c
  else
    let c := c.stepCounters (if isDone then 3 else 2)
    if shadow then c.modRegion fun g => { g with clears := g.clears ++ [(isDone, i)] }
    else c.consume isDone i

/-- A descriptor issues to its depot queue: its completion bit clears and it is in flight (R153). -/
def Core.startDepot (c : Core) (d : Nat) (offset : BitVec 64) (shadow : Bool) : Core :=
  let bit := BitVec.ofNat 56 (2 ^ d)
  { c with
    done := c.done &&& ~~~bit
    inFlight := c.inFlight ||| bit
    issuedInStage := c.issuedInStage ||| bit
    depots := c.depots ++ [{ desc := d, descriptor := c.descriptor c.bank d, offset := offset, next := 0
                             stopped := false, shadow := shadow, kept := [], accepted := false }] }

/-- Offset of a DLD or DST (R151). -/
def depotOffset (c : Core) (useX : Bool) (x : BitVec 3) : BitVec 64 := if useX then c.x x.toNat else 0

/-- L-slot effects: loads read through the store hold (R64, R72). -/
def Core.effectL (c : Core) (e : Env) (pre : Core) (shadow : Bool) : LOp → Core
  | .ld r g off =>
    let a := (pre.operandAddress g off 64).toNat
    c.resultV r.toNat (latLoad e.b0) (BitVec.ofNat 4096 (leNat (pre.readThroughHold a 512)))
  | .ldx r g off =>
    let a := (pre.operandAddress g off 8).toNat
    c.resultX r.toNat (latLoad e.b0) (BitVec.ofNat 64 (leNat (pre.readThroughHold a 8)))
  | .dld desc useX x => c.startDepot desc.toNat (depotOffset pre useX x) shadow

/-- Address and bytes of an ST or STX. -/
def storeOf (pre : Core) : TOp → Option (Nat × Bytes)
  | .st r g off => some ((pre.operandAddress g off 64).toNat, leBytes (pre.v r.toNat).toNat 512)
  | .stx r g off => some ((pre.operandAddress g off 8).toNat, leBytes (pre.x r.toNat).toNat 8)
  | .dst _ _ _ => none

/-- A store is visible to later loads after its latency (Table 2.10, R50). -/
def Core.noteStore (c : Core) (a n : Nat) : Core :=
  { c with stores := c.stores ++ [⟨a, n, c.cycle + latStore⟩] }

/-- Which lines of a store to a green region pass their bank's outer port in its own cycle, with the bank of each: those of
one unit together, and none past a user of a higher rank or a mirror write that waits already (R110, R112). `used` holds the
banks and units that have passed. -/
def Core.mirrorPorts (c : Core) : List (Nat × Bytes) → List (Nat × Nat) → List (Bool × Nat × Nat × Bytes)
  | [], _ => []
  | (a, b) :: r, used =>
    let copy := c.writtenCopy a
    let bank := scratchBank copy
    let granted := used.contains (bank, copy / 128)
      || (c.mayTransfer bank portMirror && !(used.any fun u => u.1 = bank) && !(c.mirrors.any fun m => m.1 = bank))
    (granted, bank, a, b) :: c.mirrorPorts r (if granted then (bank, copy / 128) :: used else used)

/-- The mirror writes of a store of `b` at a, whose first byte has its home at `home`; a line that its port does not take
waits (R112, R122). -/
def sendMirrors (s : State) (n a home : Nat) (b : Bytes) : State :=
  let plan := (coreOf s n).mirrorPorts (splitLines a b) []
  let s := modCoreOf s n fun c => plan.foldl (fun c x =>
    if x.1 then c.takePort x.2.1 portMirror
    else { c.waitPort x.2.1 portMirror with mirrors := c.mirrors ++ [(x.2.1, home + (x.2.2.1 - a), x.2.2.2)] }) c
  mirrorWrites s n ((plan.filter (·.1)).map fun x => (home + (x.2.2.1 - a), x.2.2.2))

/-- Store bytes of logical core n into its scratchpad, and the mirror writes and the
fingerprint term of a green region (R118 to R122, R440). -/
def storeBytes (s : State) (n a : Nat) (b : Bytes) : State :=
  let c := coreOf s n
  let mirror := c.mirrorAddress a b.length
  let s := modCoreOf s n fun c => c.writeScratch a b
  match mirror with
  | some home => addTerm (sendMirrors s n a home b) (leBytes n 2 ++ leBytes a 4 ++ b)
  | none => s

/-- T-slot effects. In a shadow window a store and a DST enter the store hold (R72). -/
def effectT (s : State) (n : Nat) (pre : Core) (shadow : Bool) (o : TOp) : State :=
  match storeOf pre o, o with
  | some (a, b), _ =>
    let s := modCoreOf s n fun c => c.noteStore a b.length
    if shadow then modCoreOf s n fun c => c.modRegion fun g => { g with hold := g.hold ++ [.store a b pre.pc] }
    else storeBytes s n a b
  | none, .dst desc useX x =>
    let d := 32 + desc.toNat
    let offset := depotOffset pre useX x
    if shadow then modCoreOf s n fun c => c.modRegion fun g => { g with hold := g.hold ++ [.dst d useX offset] }
    else modCoreOf s n fun c => c.startDepot d offset false
  | none, _ => s

/-- The queue after its first operation equal to m has entered the array in cycle e. -/
def enterFirst (m : MatrixOp) (e : Nat) : List MatrixOp → List MatrixOp
  | [] => []
  | x :: r => if x = m then { m with enter := some e } :: r else x :: enterFirst m e r

/-- The first M operation equal to m in the queue enters the array in cycle e (R42, R96, R125). -/
def enterArray (s : State) (n : Nat) (m : MatrixOp) (e : Nat) : State :=
  settleArray (modCoreOf s n fun c => ({ c with mops := enterFirst m e c.mops } : Core).runArray m e) n

/-- A drain begins: a ledger drain reads its first row in its issue cycle (R44, R104). -/
def startDrain (s : State) (n : Nat) (d : DrainOp) : State :=
  let s := modCoreOf s n fun c => { c with drains := (c.drains.filter fun x => !x.gone c.cycle) ++ [d] }
  if 3 ≤ d.mode then readLedgers s n d 0 else s

/-- M-slot effects: an MMA joins the command queue, and enters the array at once where it is free (R42); a
drain starts, with the bank's words as they stand (R43, R44). -/
def effectM (s : State) (n : Nat) (pre : Core) : MOp → State
  | .mma bank acc fa fb k ga gb =>
    let m := pre.matrixOp bank acc fa fb k ga gb
    let s := modCoreOf s n fun c => { c with mops := c.mops ++ [m] }
    if pre.queued.isEmpty then enterArray s n m pre.cycle else s
  | .drain bank mode fmt rnd count dest window =>
    let st : Bool := mode = 2 && rnd.toNat = 1
    let c := coreOf s n
    let words := (c.acc.filter fun w => if bank then 8192 ≤ w.1 else w.1 < 8192).map fun w => (w.1 - 8192 * flag bank, w.2)
    let d : DrainOp :=
      { bank := bank, mode := mode.toNat, fmt := fmt, stochastic := st, index := c.regs.stoch, count := drainRows count
        dest := if mode = 0 then dest.toNat else pre.agAddress dest.toNat
        window := window.toInt, issued := pre.cycle, row := 0, words := words, isInt := c.accInt.getLsbD (flag bank)
        ledgers := [], address := pre.pc }
    startDrain (modCoreOf s n fun c =>
      let c := { c with regs := { c.regs with stoch := if st then c.regs.stoch + 1 else c.regs.stoch } }
      if mode = 0 then
        (countFrom 0 (min 32 (drainRows count))).foldl
          (fun c r => c.setReady (resV ((dest.toNat + r) % 32)) (pre.cycle + r + latDrain (isB0 s))) c
      else c) n d

/-- Effect of one operation of a bundle. -/
def effectSlot (s : State) (n : Nat) (e : Env) (pre : Core) (shadow : Bool) (o : SlotOp) : State :=
  match o with
  | .s o => modCoreOf s n fun c => c.effectS e pre o
  | .v o => modCoreOf s n fun c => c.effectV e pre o
  | .m o => effectM s n pre o
  | .l o => modCoreOf s n fun c => c.effectL e pre shadow o
  | .t o => effectT s n pre shadow o
  | .y o => modCoreOf s n fun c => c.effectY shadow o

end Sys2Proof.Machine
end

