-- ==== Sys2Proof/Machine/Depot.lean ====
section
/-! DEFINITION. Depot operations: the lines of a walk, their ends, and the tracker (R116, R125, R146, R151 to
R159, R343). -/

namespace Sys2Proof.Machine

/-- Index objects of waystation w. -/
def wsIndex (w : Nat) : Nat := 0x5820 + w

/-- Kind of waystation w: 0 unused, 1 inbound, 2 outbound (OD 58ww.01). -/
def wsKind (s : State) (w : Nat) : Nat := odGet s (od (wsIndex w) 1)

/-- First byte of waystation w (R337). -/
def wsBase (s : State) (w : Nat) : Nat := odGet s (od 0x5810 1) + w * 0x500000

/-- The outbound waystation whose slot headers hold a range (R343). -/
def headersOf (s : State) (a n : Nat) : Option Nat :=
  (countFrom 32 16).find? fun w => wsKind s w = 2 && wsBase s w ≤ a && a + n ≤ wsBase s w + 0x10000

/-- Do an operation's lines become outbound records (R343)? -/
def sendsRecords (s : State) (o : DepotOp) : Option Nat :=
  let x := readDepot o.descriptor
  if inboundDesc o.desc || x.kind ≠ 0 then none
  else
    let (lo, hi) := x.extBounds o.offset
    headersOf s lo.toNat (hi - lo + 1).toNat

/-- Device-physical addresses of the lines that an operation has not moved yet; none for a glaze request,
which touches no external line. -/
def DepotOp.linesLeft (o : DepotOp) : List Int :=
  let x := readDepot o.descriptor
  if o.stopped || x.kind ≠ 0 then []
  else (countFrom o.next (x.lines - o.next)).map fun i => (x.line o.offset i).1

/-- May the next line of operation o move now: after a fence's earlier operations, and after every line that an
earlier operation still has to move to the same address or as a record (R156, R343, Table 6.3)? -/
def depotMayMove (s : State) (c : Core) (o : DepotOp) : Bool :=
  let earlier := c.depots.takeWhile fun x => x.desc ≠ o.desc
  let x := readDepot o.descriptor
  let e := (x.line o.offset o.next).1
  !o.stopped && o.next < x.lines
    && (!x.fence || earlier.isEmpty)
    && (x.kind ≠ 0 || !(earlier.any fun y => y.linesLeft.contains e))
    && !((sendsRecords s o).isSome && earlier.any fun y => (sendsRecords s y).isSome && !y.linesLeft.isEmpty)

/-- Change the operation of descriptor d of logical core n. -/
def modDepot (s : State) (n d : Nat) (f : DepotOp → DepotOp) : State :=
  modCoreOf s n fun c => { c with depots := c.depots.map fun o => if o.desc = d then f o else o }

/-- A line arrives in scratchpad from outside the core, through its bank's outer port (R110): written and mirrored, or not
written where it breaches R116, with the core's halt. -/
def deliverLine (s : State) (n a : Nat) (b : Bytes) : State :=
  if (coreOf s n).writeBreach a b.length true then slot7Halt s n 0x42
  else
    let s := modCoreOf s n fun c => c.takePort (scratchBank (c.writtenCopy a)) portDepot
    coreEvent (storeBytes s n a b) n 0x0E 1

/-- A line of another fill than a depot's: a touch of a guarded range or a breach of R116 halts the core and the
line is not written (R46, R116). The flag says whether it was written. Its user has the bank's outer port (R110). -/
def fillLine (s : State) (n a : Nat) (b : Bytes) : State × Bool :=
  let c := coreOf s n
  if c.guarded (boundsOf a b.length) then (slot7Halt s n 0x43, false)
  else if c.writeBreach a b.length true then (slot7Halt s n 0x42, false)
  else (storeBytes s n a b, true)

/-- A waybill bit of logical core n sets (R282). -/
def setWaybill (s : State) (n bit : Nat) : State :=
  coreEvent (modCoreOf s n fun c => { c with
    waybill := c.waybill ||| BitVec.ofNat 1024 (2 ^ bit), waybillAt := Table.put c.waybillAt 0 bit c.cycle }) n 0x10 1

/-- The next line of an inbound walk moves from memory into the depot, or through it to scratchpad (R125, R146, R151, R158). -/
def fetchLine (s : State) (n : Nat) (o : DepotOp) : State :=
  let x := readDepot o.descriptor
  let (e, sp) := x.line o.offset o.next
  let e := e.toNat
  let s := noteLinesAt (modDepot s n o.desc fun o => { o with next := o.next + 1 }) e 1 true
  if lineBad s e ≠ 0 then slot7Halt (uncorrectable s (readFrame s e) (lineBad s e) true) n 0xA6
  else
    let b := readExtLine s e
    if o.shadow then modDepot s n o.desc fun o => { o with kept := o.kept ++ [(sp.toNat, b)] }
    else deliverLine s n sp.toNat b

/-- Lines that a depot has kept over a shadow window go to scratchpad, as far as the ports take them (R72, R112, R136). -/
def deliverKept (s : State) (n d : Nat) : List (Nat × Bytes) → State
  | [] => s
  | (a, b) :: r =>
    let bank := scratchBank ((coreOf s n).writtenCopy a)
    if (coreOf s n).mayTransfer bank portDepot then
      deliverKept (deliverLine (modDepot s n d fun o => { o with kept := r }) n a b) n d r
    else modCoreOf s n fun c => c.waitPort bank portDepot

/-- The next line of an inbound walk: a line whose bank's outer port is taken waits (R110, R112). -/
def moveInbound (s : State) (n : Nat) (o : DepotOp) : State :=
  let c := coreOf s n
  let bank := scratchBank (c.writtenCopy (((readDepot o.descriptor).line o.offset o.next).2).toNat)
  if o.shadow then fetchLine s n o
  else if !o.kept.isEmpty then deliverKept s n o.desc o.kept
  else if c.mayTransfer bank portDepot then fetchLine s n o
  else modCoreOf s n fun c => c.waitPort bank portDepot

/-- An outbound line is applied: a held record, a context entry, or memory (R146, R164, R201, R343,
R440). -/
def applyOutbound (s : State) (n : Nat) (record : Option Nat) (e : Nat) (b : Bytes) : State :=
  match record with
  | some w =>
    if 1024 ≤ s.host.records.length then
      setStop (setCause { s with host := { s.host with overflow := true } } causeCapacity)
    else
      let r : OutRecord := { ws := w, core := n, header := BitVec.ofNat 512 (leNat b) }
      addTerm { s with host := { s.host with records := s.host.records ++ [r] } } (BitVec.ofNat 8 w :: b)
  | none =>
    match contextOf s e with
    | some c => contextWrite s n c b
    | none =>
      match stageWrite s e b with
      | (s', .applied) => if (greenAt s e).isSome then addTerm s' (leBytes e 8 ++ b) else s'
      | (s', .copyFailed) => slot7Halt s' n 0xA6
      | (s', .listFull) => s'

/-- The next line of an outbound walk; a failed read or a breach ends the operation (R116, R125, R152). -/
def moveOutbound (s : State) (n : Nat) (o : DepotOp) : State :=
  let c := coreOf s n
  let x := readDepot o.descriptor
  let (e, sp) := x.line o.offset o.next
  let a := sp.toNat
  let stop (s : State) : State := modDepot s n o.desc fun o => { o with stopped := true }
  let bank := scratchBank (c.readCopy a)
  if (c.regionAt a 64).isNone then slot7Halt (stop s) n 0x42
  else if !c.mayTransfer bank portDepot then modCoreOf s n fun c => c.waitPort bank portDepot
  else
    let s := modCoreOf s n fun c => c.takePort bank portDepot
    match c.readError a 64 with
    | some w =>
      takeHaltAt (noteScratchError (stop s) n w) n
        { code := 0xA7, slot := 7, bank := c.bank, address := c.pc, shadow := false, cycle := c.cycle } (some (siteWord w))
    | none =>
      let b := c.readScratch a 64
      let record := sendsRecords s o
      let s := modDepot s n o.desc fun o =>
        { o with next := o.next + 1, kept := if x.kind = 1 then o.kept ++ [(0, b)] else o.kept }
      if x.kind = 1 then s else applyOutbound s n record e.toNat b

/-- Has a depot lines that it has kept and may deliver now? -/
def DepotOp.delivers (o : DepotOp) : Bool := inboundDesc o.desc && !o.shadow && !o.kept.isEmpty

/-- Can the next line of an operation of logical core n move: its core's die runs, and so does the die of the memory that the line asks
(R226, R464)? -/
def depotReaches (s : State) (n : Nat) (o : DepotOp) : Bool :=
  let x := readDepot o.descriptor
  dieRuns s (n / 144) && (o.delivers || x.kind ≠ 0
    || (locate s ((x.line o.offset o.next).1).toNat).all fun p => memoryRuns s p.iface)

/-- One line of the walk of descriptor d of logical core n moves, while the stage's traffic may (R130, R151) and the dies run. -/
def moveDepotLine (s : State) (n d : Nat) : State :=
  let c := coreOf s n
  match c.depots.find? fun o => o.desc = d with
  | none => s
  | some o =>
    if !stageTraffic s || !(o.delivers || depotMayMove s c o) || !depotReaches s n o then s
    else if inboundDesc d then moveInbound s n o else moveOutbound s n o

/-- Has an operation nothing left to do (R125, R153)? -/
def DepotOp.finished (o : DepotOp) : Bool :=
  let x := readDepot o.descriptor
  !o.shadow && !o.delivers && (o.stopped || (x.lines ≤ o.next && (x.kind ≠ 1 || o.accepted)))

/-- The operation of descriptor d of logical core n completes: its completion bit sets (R153). -/
def completeDepot (s : State) (n d : Nat) : State :=
  match (coreOf s n).depots.find? fun o => o.desc = d with
  | none => s
  | some o =>
    if !o.finished then s
    else modCoreOf s n fun c =>
      let bit := BitVec.ofNat 56 (2 ^ d)
      { c with
        done := c.done ||| bit
        doneAt := Table.put c.doneAt 0 d c.cycle
        inFlight := c.inFlight &&& ~~~bit
        depots := c.depots.filter fun o => o.desc ≠ d }

/-- Do plan requests wait at an interface, while the stage's traffic may move: at its glaze engine, the next line of a depot operation,
or a mirror write (R161)? -/
def planWaits (s : State) (i : Nat) : Bool :=
  let e := getEngine s i
  let behind (a : Nat) : Bool := (locate s a).any fun p => p.iface = i
  let waits (o : DepotOp) : Bool := match o.linesLeft with
    | a :: _ => behind a.toNat
    | [] => false
  stageTraffic s && (!e.waiting.isEmpty || !e.held.isEmpty
    || s.cores.any fun c => c.2.depots.any waits || c.2.mirrors.any fun m => behind m.2.1)

/-- The interfaces that a waiting access asks for. -/
def MemAccess.ifaces (s : State) : MemAccess → List Nat
  | .hostWrite a b => ifacesOf s a b.length
  | .hostRead _ a n => ifacesOf s a n
  | .copyBale _ _ a _ => ifacesOf s a 128
  | .pageBale _ _ _ a _ => ifacesOf s a 128

/-- A refresh falls due at a controller (R161): postponed while plan requests wait, up to the limit of the device; one that runs
makes up those that were postponed. -/
def refreshDue (s : State) (i : Nat) : State :=
  let n := Table.look s.ext.postponed 0 i
  if planWaits s i && n < Config.refreshLimit i then { s with ext := { s.ext with postponed := Table.put s.ext.postponed 0 i (n + 1) } }
  else
    let s := { s with ext := { s.ext with postponed := Table.put s.ext.postponed 0 i 0 } }
    engineEvent (if (getEngine s i).held.isEmpty then s else engineEvent s i 0x46 (n + 1)) i 0x49 (n + 1)

/-- REFRESH (R161): engine event 0x49 counts the refreshes. The memory of a die in reset is in self-refresh (R463, R464). -/
def execRefresh (iface : IfaceId) (s : State) : Host.Outcome State Fault Refusal :=
  .next (if memoryRuns s iface.val then refreshDue s iface.val else s)

/-- DEPOT_LINE_MOVE (R151). -/
def execDepotLineMove (core : CoreId) (desc : DescId) (s : State) : Host.Outcome State Fault Refusal :=
  .next (moveDepotLine s core.val desc.val)

/-- DEPOT_COMPLETE (R153). -/
def execDepotComplete (core : CoreId) (desc : DescId) (s : State) : Host.Outcome State Fault Refusal :=
  .next (completeDepot s core.val desc.val)

end Sys2Proof.Machine
end

