-- ==== Sys2Proof/Machine/Fabric.lean ====
section
/-! DEFINITION. Axes, peers, addresses, routing tables, the dynamic class and its windows (R262 to R264, R273 to
R277, R290 to R296, Tables 10.2, 10.3 and 11.7). -/

namespace Sys2Proof.Machine

/-- Links per axis (Table 11.1). -/
def linksPerAxis (s : State) : Nat := if odGet s (od 0x3A00 3) = 4 then 12 else 16

/-- Number of axes. -/
def axisCount (s : State) : Nat := odGet s (od 0x3A00 3)

/-- Line length of axis a (OD 3A00.04). -/
def lineLength (s : State) (a : Nat) : Nat :=
  let v := odGet s (od 0x3A00 4)
  bits v (5 * a + 4) (5 * a)

/-- Coordinate of an address on axis a (R275). -/
def onAxis (v a : Nat) : Nat := bits v (5 * a + 4) (5 * a)

/-- An address with another coordinate on axis a. -/
def setAxis (v a c : Nat) : Nat := putBits v (5 * a + 4) (5 * a) c

/-- The axes in use, ascending (R273). -/
def usedAxes (s : State) : List Nat := (countFrom 0 (axisCount s)).filter fun a => 1 < lineLength s a

/-- Axis of a link. -/
def axisOf (s : State) (l : Nat) : Nat := l / linksPerAxis s

/-- The peer that link l of the device at a coordinate is cabled to by R274: the peer's coordinate on the link's axis
and its link number; none for an unused link. -/
def cablingAt (s : State) (coord l : Nat) : Option (Nat × Nat) :=
  let lk := linksPerAxis s
  let a := l / lk
  let i := l % lk
  let c := onAxis coord a
  let m := lineLength s a - 1
  if axisCount s ≤ a || m = 0 then none
  else
    let k := lk / m
    if k * m ≤ i then none
    else
      let u := i % m
      let j := i / m
      let q := if u < c then u else u + 1
      some (q, lk * a + j * m + (if c < q then c else c - 1))

/-- The cabling of this device's own link l. -/
def cabling (s : State) (l : Nat) : Option (Nat × Nat) := cablingAt s (coordinate s) l

/-- Physical coordinate of a link's peer. -/
def peerCoordinate (s : State) (l : Nat) : Option Nat :=
  (cabling s l).map fun q => setAxis (coordinate s) (axisOf s l) q.1

/-- Links cabled to the peer at coordinate q of axis a, ascending. -/
def linksTo (s : State) (a q : Nat) : List Nat :=
  (countFrom (a * linksPerAxis s) (linksPerAxis s)).filter fun l => (cabling s l).map (·.1) = some q

/-- The line peers of axis a, ascending. -/
def linePeers (s : State) (a : Nat) : List Nat :=
  (countFrom 0 (lineLength s a)).filter fun q => q ≠ onAxis (coordinate s) a

/-- Link states (Table 10.10). -/
def lsOff : Nat := 0
def lsTraining : Nat := 1
def lsUp : Nat := 2
def lsReplaying : Nat := 3
def lsHeld : Nat := 4
def lsRetraining : Nat := 5
def lsNarrow : Nat := 6
def lsRetired : Nat := 7

/-- State of a link (OD 38ll.01). -/
def linkState (s : State) (l : Nat) : Nat := odGet s (od (0x3800 + l) 1)

/-- Does a link carry bales of the dynamic class? -/
def linkUp (s : State) (l : Nat) : Bool :=
  linkState s l = lsUp || linkState s l = lsReplaying || linkState s l = lsNarrow

/-- Latency of a link in whole ticks, rounded up; OD 2403 keeps it in 1/16 tick. -/
def linkLatency (s : State) (l : Nat) : Nat := (odGet s (od 0x2403 (l + 1)) + 15) / 16

/-- Bounded replay delay of a link (R258). -/
def replayDelay (s : State) (l : Nat) : Nat := 2 * linkLatency s l + 352

/-- The spare axis, none for 0xFF (R276). -/
def spareAxis (s : State) : Option Nat := let a := odGet s (od 0x3A00 5); if a < 4 then some a else none

/-- Addresses of the substitution list (OD 3A00.07). -/
def substitutions (s : State) : List Nat :=
  let b := odGetBytes s (od 0x3A00 7)
  (countFrom 0 (min (odGet s (od 0x3A00 6)) (b.length / 4))).map fun i => bits (field b (4 * i) 4) 19 0

/-- Physical coordinate that holds a logical address (R276). -/
def physicalOf (s : State) (logical : Nat) : Nat :=
  match spareAxis s with
  | some a => if (substitutions s).contains logical then setAxis logical a (lineLength s a - 1) else logical
  | none => logical

/-- Logical address of the device itself (R276): its coordinate outside the spare slice, the substituted address
of its place in it, none otherwise. -/
def ownLogical (s : State) : Option Nat :=
  let p := coordinate s
  let subs := substitutions s
  match spareAxis s with
  | none => some p
  | some a =>
    if onAxis p a = lineLength s a - 1 then
      subs.find? fun x => setAxis x a (lineLength s a - 1) = p
    else if subs.contains p then none else some p

/-- Does a notice of the set name this link of this coordinate as down (Table 11.10)? -/
def downIn (set : List (BitVec 32)) (coord link : Nat) : Bool :=
  set.any fun w => !w.getLsbD 26 && bits w.toNat 25 20 = link && bits w.toNat 19 0 = coord

/-- Is the link l from this device, in the set, up at both ends' notices? -/
def upInSet (s : State) (set : List (BitVec 32)) (l : Nat) : Bool :=
  !downIn set (coordinate s) l && (match cabling s l, peerCoordinate s l with
    | some q, some c => !downIn set c q.2
    | _, _ => false)

/-- A routing table entry (R290). -/
def routeEntry (via link : Nat) : BitVec 16 := BitVec.ofNat 16 (2 ^ 15 + via % 32 * 256 + link % 64)

/-- Is every link between line peers v and q of axis a down in the set, judged from both ends? `v` is not this
device: its link ordinals follow R274 for its own coordinate. -/
def peersJoined (s : State) (set : List (BitVec 32)) (a v q : Nat) : Bool :=
  let lk := linksPerAxis s
  let m := lineLength s a - 1
  let k := if m = 0 then 0 else lk / m
  let cv := setAxis (coordinate s) a v
  let cq := setAxis (coordinate s) a q
  (countFrom 0 k).any fun j =>
    let lv := lk * a + j * m + (if q < v then q else q - 1)
    let lq := lk * a + j * m + (if v < q then v else v - 1)
    !downIn set cv lv && !downIn set cq lq

/-- Entry for coordinate q of axis a under a down set (R290); none where no way exists. -/
def buildEntry (s : State) (set : List (BitVec 32)) (a q : Nat) : Option (BitVec 16) :=
  match (linksTo s a q).find? (upInSet s set) with
  | some l => some (routeEntry q l)
  | none =>
    (linePeers s a).findSome? fun v =>
      if v = q || !peersJoined s set a v q then none
      else ((linksTo s a v).find? (upInSet s set)).map fun l => routeEntry v l

/-- The routing table of a down set (R290). -/
def buildRoutes (s : State) (set : List (BitVec 32)) : RoutingTable :=
  (usedAxes s).flatMap fun a => (linePeers s a).filterMap fun q =>
    (buildEntry s set a q).map fun e => (32 * a + q, e)

/-- The link a dynamic bale leaves on towards a logical address, by a routing table; none at its destination
or without a route (R290). -/
def routeLink (s : State) (t : RoutingTable) (dst : Nat) : Option Nat :=
  let p := physicalOf s dst
  match (usedAxes s).find? fun a => onAxis p a ≠ onAxis (coordinate s) a with
  | none => none
  | some a =>
    let e := Table.look t 0 (32 * a + onAxis p a)
    if e.getLsbD 15 then some (e.toNat % 64) else none

/-- Is a logical address held by this device? -/
def isOwn (s : State) (dst : Nat) : Bool := physicalOf s dst = coordinate s

/-- Parity of the current routing epoch (R291). -/
def epochBit (s : State) : Bool := odGet s (od 0x3900 1) % 2 = 1

/-- The routing table of an epoch bit (R292). -/
def tableOf (s : State) (epoch : Bool) : RoutingTable := if epoch = epochBit s then s.fabric.current else s.fabric.old

/-- A bale's 160 bytes as a number whose byte 0 is the most significant. -/
def packBale (b : Bytes) : BitVec 1280 := BitVec.ofNat 1280 (beNat b)

/-- The 160 bytes of a bale. -/
def baleBytes (b : BitVec 1280) : Bytes := beBytes b.toNat 160

/-- Header bits of a bale (Table 10.2). -/
def baleHeader (b : BitVec 1280) : Nat := b.toNat / 2 ^ 1184

/-- Payload of a bale. -/
def balePayload (b : BitVec 1280) : Bytes := slice (baleBytes b) 12 144

/-- A bale with its check bytes (R251). -/
def makeBale (header : Nat) (payload : Bytes) : BitVec 1280 :=
  let b := beBytes header 12 ++ slice payload 0 144
  packBale (b ++ rsCheck b)

/-- Header bits of a dynamic bale (Table 10.3), without seq, ack and nak. -/
def dynamicHeader (epoch : Bool) (dst src : Nat) (mark echo : Bool) (kind : Nat) : Nat :=
  3 * 2 ^ 93 + flag epoch * 2 ^ 91 + dst % 2 ^ 20 * 2 ^ 34 + src % 2 ^ 20 * 2 ^ 14 + flag mark * 2 ^ 13
    + flag echo * 2 ^ 12 + kind % 256 * 2 ^ 4

/-- Fields of a bale header (Table 10.3). -/
def hClass (h : Nat) : Nat := bits h 95 93
def hReplay (h : Nat) : Bool := bitAt h 92
def hEpoch (h : Nat) : Bool := bitAt h 91
def hSeq (h : Nat) : Nat := bits h 90 79
def hAck (h : Nat) : Nat := bits h 78 67
def hNakValid (h : Nat) : Bool := bitAt h 66
def hNak (h : Nat) : Nat := bits h 65 54
def hEntry (h : Nat) : Nat := bits h 53 40
def hIndex (h : Nat) : Nat := bits h 39 24
def hPlanDst (h : Nat) : Nat := bits h 23 4
def hDst (h : Nat) : Nat := bits h 53 34
def hSrc (h : Nat) : Nat := bits h 33 14
def hMark (h : Nat) : Bool := bitAt h 13
def hEcho (h : Nat) : Bool := bitAt h 12
def hKind (h : Nat) : Nat := bits h 11 4
def hOp (h : Nat) : Nat := bits h 53 46
def hParam (h : Nat) : Nat := bits h 45 0

/-- Does a header hold a reserved value (R252)? -/
def hReserved (h : Nat) : Bool := 5 ≤ hClass h || (hClass h = 4 && !(1 ≤ hOp h && hOp h ≤ 7))

/-- Requesters of transfers, as the tag's top byte names them: the port numbers of Table 11.8 (log entry 27). -/
def fromSteward : Nat := 49
def fromHost : Nat := 50
def fromEngine (g : Nat) : Nat := 51 + g

/-- A new transfer tag for a requester (log entry 27). -/
def newTag (s : State) (requester : Nat) : State × Nat :=
  let t := s.fabric.nextTag
  let tag := requester % 256 * 65536 + t.toNat % 65536
  let old := s.fabric.completed.filter fun x => x ≠ (logicalAddress s, tag)
  ({ s with fabric := { s.fabric with nextTag := t + 1, completed := old } }, tag)

/-- The fabric copy that runs ends with a status (R345, R346). -/
def endCopy (s : State) (status : Nat) : State :=
  if s.host.copyTo.isNone then s
  else raiseSource (odSet { s with host := { s.host with copyTo := none } } (od 0x5880 6) status) 3

/-- A tunnelled request ends without a reply (R370, R374): its station gets the status, or the window shows it. -/
def endTunnel (s : State) (x : Tunnel) (status : Nat) : State :=
  let s := { s with dict := { s.dict with tunnels := s.dict.tunnels.filter fun y => y ≠ x } }
  match x.back with
  | none => odSet (odSet s (od 0x1170 4) status) (od 0x1170 7) 3
  | some (port, station) =>
    sendFrame s port (gdpFrame s station.toNat x.vlan
      (gdpPdu s (x.op + 1) 1 x.transaction.toNat x.id status (if x.op = 5 || x.op = 7 then x.segment else 0) (some x.target.toNat) []))

/-- A transfer of this device ends with an error: the fabric copy of that tag shows the status (R264, R346), an engine's oldest dynamic
operation takes it (R192), a tunnelled request ends as unreachable (R370). -/
def transferFailed (s : State) (tag status : Nat) : State :=
  let r := tag / 65536
  if r = fromHost then (if tag = s.host.copyTag then endCopy s (if status < 0x10 then 0x02 else status) else s)
  else if 51 ≤ r && r < 75 then
    let e := getEngine s (r - 51)
    match e.dynamic with
    | [] => s
    | d :: rest =>
      let sent := d.sent.map fun x => if x.1 = tag then (tag, max x.2 status) else x
      setEngine s (r - 51) { e with dynamic := { d with worst := max d.worst status, sent := sent } :: rest }
  else if r = fromSteward then
    match s.dict.tunnels.find? fun x => x.tag = tag with
    | some x => endTunnel s x 0x0C
    | none => s
  else s

/-- Payload of a dynamic bale other than a vote: end-to-end header and data (R293). -/
def dynamicPayload (seq ack length tag : Nat) (data : Bytes) : Bytes :=
  leBytes (seq % 65536 * 2 ^ 48 + ack % 65536 * 2 ^ 32 + length % 256 * 2 ^ 24 + tag % 2 ^ 24) 8 ++ data

/-- A bale leaves towards this device itself, or cannot be routed: what leaves through the loop or the link. -/
def loopLink : Nat := 48

/-- Drop a dynamic bale with a synthetic completion (R255, R264, R292): to the requester of this device at once, to
another device's by a kind-0x06 bale, which the caller sends. -/
def dropCount (s : State) (l status : Nat) : State :=
  if status = 0x11 then odAdd s (od (0x3800 + l) 0x1D) 1 else odAdd s (od (0x3800 + l) 0x1E) 1

/-- Keep the count of held bales (38ll.1C). -/
def noteHeld (s : State) (l : Nat) : State := odSet s (od (0x3800 + l) 0x1C) (getLink s l).held.length

/-- Put a bale in a dynamic queue behind those of its own port and of the ports before it (R18, R296). -/
def insertPort (x : Nat × BitVec 1280) : List (Nat × BitVec 1280) → List (Nat × BitVec 1280)
  | [] => [x]
  | y :: r => if x.1 < y.1 then x :: y :: r else y :: insertPort x r

/-- Port at which this device's own bale is requested (Table 11.8). DESIGN CHOICE (log entry 57): an acknowledgement and a
completion are the steward's. -/
def requesterPort (bale : BitVec 1280) : Nat :=
  let tag := bits (field (balePayload bale) 0 8) 23 0
  match hKind (baleHeader bale) with
  | 1 => 0
  | 4 => fromHost
  | 5 => tag / 65536
  | _ => fromSteward

/-- Put a bale of a requester port on a link's dynamic queue; one that is enqueued behind more than 128 is marked (R295). -/
def enqueueDynamic (s : State) (l port : Nat) (bale : BitVec 1280) : State :=
  let k := getLink s l
  if 128 < k.dynamic.length then
    let b := makeBale (setBit (baleHeader bale) 13) (balePayload bale)
    let s := linkEvent (odAdd s (od 0x3905 1) 1) l 0x28 1
    setLink s l { k with dynamic := insertPort (port, b) k.dynamic }
  else setLink s l { k with dynamic := insertPort (port, bale) k.dynamic }

/-- Put a dynamic bale of a requester port on a link's queue (R255, R264). The second component is the synthetic status of a
dropped bale. A full queue is 256 bales. -/
def enqueueLink (s : State) (l port : Nat) (bale : BitVec 1280) : State × Option Nat :=
  let k := getLink s l
  let st := linkState s l
  let serving := (runs s || deviceState s = stStopped) && odGet s (od (0x3800 + l) 0x22) = 0
  if st = lsHeld || st = lsRetraining then
    if !serving then (dropCount s l 0x10, some 0x10)
    else if 1024 ≤ k.held.length then (dropCount s l 0x12, some 0x12)
    else (noteHeld (setLink s l { k with held := k.held ++ [bale] }) l, none)
  else if !linkUp s l then (dropCount s l 0x10, some 0x10)
  else if 256 ≤ k.dynamic.length then (dropCount s l 0x13, some 0x13)
  else (enqueueDynamic s l port bale, none)

/-- Route a dynamic bale of a requester port (R290): through the loop where it is at its destination. -/
def routeBale (s : State) (port : Nat) (bale : BitVec 1280) : State × Option Nat :=
  let h := baleHeader bale
  if isOwn s (hDst h) then (emit s (.bale loopLink 0 bale), none)
  else
    match routeLink s (tableOf s (hEpoch h)) (hDst h) with
    | some l => enqueueLink s l port bale
    | none => (s, some 0x10)

/-- A transfer is complete: the state where it was not before. Each has one completion (R264). DESIGN CHOICE (log entry 57): of the
transfers that have ended so, the last 1,024 are remembered. -/
def endTransfer (s : State) (src tag : Nat) : Option State :=
  if s.fabric.completed.contains (src, tag) then none
  else some { s with fabric := { s.fabric with completed := ((src, tag) :: s.fabric.completed).take 1024 } }

/-- A transfer of this device ends by a synthetic completion, once. -/
def completeOwn (s : State) (tag status : Nat) : State :=
  match endTransfer s (logicalAddress s) tag with
  | none => s
  | some s => transferFailed (emit s (.completion (BitVec.ofNat 24 tag) status)) tag status

/-- The window's own copy of a bale gets its number, acknowledgement and echo when it is sent. -/
def sendNow (s : State) (dst : Nat) (bale : BitVec 1280) : State :=
  let w := getWindow s dst
  let h := baleHeader bale
  let p := balePayload bale
  let word := field p 0 8
  let payload := dynamicPayload w.nextSeq.toNat (w.expect - 1).toNat (bits word 31 24) (bits word 23 0) (p.drop 8)
  let h := putBits h 91 91 (flag (epochBit s))
  let b := makeBale (if w.echoDue then setBit h 12 else h) payload
  let data := hKind h = 4 || hKind h = 5
  let open' := if isOwn s dst && !data then 0 else w.unacked + 1
  let s := setWindow s dst { w with nextSeq := w.nextSeq + 1, unacked := open', echoDue := false, ackDue := none }
  match routeBale s (requesterPort b) b with
  | (s, none) => s
  | (s, some status) => completeOwn s (bits word 23 0) status

/-- Send a dynamic bale of a kind other than the vote (R293, R294): at once within the window, else it waits. -/
def sendDynamic (s : State) (dst kind tag : Nat) (data : Bytes) : State :=
  let bale := makeBale (dynamicHeader (epochBit s) dst (logicalAddress s) false false kind)
    (dynamicPayload 0 0 data.length tag (slice data 0 136))
  let w := getWindow s dst
  if w.limit ≤ w.unacked || !w.waiting.isEmpty then setWindow s dst { w with waiting := w.waiting ++ [bale] }
  else sendNow s dst bale

/-- Waiting bales leave while the window has room, n at most. -/
def releaseWindow (s : State) (dst : Nat) : Nat → State
  | 0 => s
  | n + 1 =>
    let w := getWindow s dst
    match w.waiting with
    | [] => s
    | b :: r =>
      if w.limit ≤ w.unacked then s
      else releaseWindow (sendNow (setWindow s dst { w with waiting := r }) dst b) dst n

/-- Nothing is left to send to a device, or unacknowledged by it. -/
def windowIdle (s : State) (dst : Nat) : Bool := (getWindow s dst).waiting.isEmpty && (getWindow s dst).unacked = 0

/-- The fabric copy is done once its last bale is acknowledged (R346). -/
def noteCopyDone (s : State) : State :=
  match s.host.copyTo with
  | some d => if windowIdle s d then endCopy s 0 else s
  | none => s

/-- An acknowledgement and its echo arrive from a device (R294, R295). -/
def takeAck (s : State) (src ack : Nat) (echo : Bool) : State :=
  let w := getWindow s src
  let oldest := (w.nextSeq.toNat + 65536 - w.unacked % 65536) % 65536
  let n := (ack + 1 + 65536 - oldest) % 65536
  let n := if n ≤ w.unacked then n else 0
  let since := w.sinceEcho + n
  let w := { w with unacked := w.unacked - n }
  let w :=
    if echo then { w with limit := max 4 (w.limit / 2), sinceEcho := 0 }
    else if 64 ≤ since then { w with limit := min 64 (w.limit + 8), sinceEcho := since - 64 }
    else { w with sinceEcho := since }
  let s := setWindow s src w
  let s := if echo then odAdd s (od 0x3905 2) 1 else s
  releaseWindow s src 64

/-- A transfer from a device is refused (R192, R346): the kind-0x06 completion with its status, which a transfer of this device
takes without a bale. -/
def refuseTransfer (s : State) (src tag status : Nat) : State :=
  if isOwn s src then completeOwn s tag status else sendDynamic s src 0x06 tag [BitVec.ofNat 8 status]

/-- A data bale of this device's own has come through the loop (R192): it is no longer outstanding. -/
def takeLoop (s : State) (src : Nat) : State :=
  if !isOwn s src then s
  else
    let w := getWindow s src
    noteCopyDone (releaseWindow (setWindow s src { w with unacked := w.unacked - 1 }) src 64)

/-- The next expected number after those that have come ahead. -/
def absorb : Nat → BitVec 16 → List Nat → BitVec 16 × List Nat
  | 0, e, l => (e, l)
  | n + 1, e, l => if l.contains e.toNat then absorb n (e + 1) (l.filter (· ≠ e.toNat)) else (e, l)

/-- A numbered dynamic bale arrives from a device: false for a duplicate, which is discarded (R294). -/
def takeSeq (s : State) (src seq : Nat) (mark : Bool) : State × Bool :=
  let w := getWindow s src
  let d := (seq + 65536 - w.expect.toNat) % 65536
  if 32768 ≤ d || w.ahead.contains seq then (s, false)
  else
    let (e, l) := absorb 65536 w.expect (w.ahead ++ [seq])
    (setWindow s src { w with expect := e, ahead := l, echoDue := w.echoDue || mark
                              ackDue := some (w.ackDue.getD (now s + 256)) }, true)

/-- A synthetic completion towards the source of a dropped bale (R264): to this device's own requester, or as a
kind-0x06 bale to another device. -/
def completeDropped (s : State) (bale : BitVec 1280) (status : Nat) : State :=
  let h := baleHeader bale
  let tag := bits (field (balePayload bale) 0 8) 23 0
  if hKind h = 0x01 then s
  else if hSrc h = logicalAddress s then completeOwn s tag status
  else
    match endTransfer s (hSrc h) tag with
    | none => s
    | some s => sendDynamic s (hSrc h) 0x06 tag [BitVec.ofNat 8 status]

/-- Forward a bale that came on a link, with the completion of a dropped one: its port is the link's (Table 11.8). -/
def forwardBale (s : State) (l : Nat) (bale : BitVec 1280) : State :=
  match routeBale s (l + 1) bale with
  | (s, none) => s
  | (s, some status) => completeDropped s bale status

end Sys2Proof.Machine
end

