-- ==== Sys2Proof/Machine/Glaze.lean ====
section
/-! DEFINITION. Glaze engines: requests, replies and their five operations (07 R170 to R195). -/

namespace Sys2Proof.Machine

/-- Object index of engine g. -/
def engineIndex (g : Nat) : Nat := 0x4100 + g

/-- Window number of engine g's local window in `locate` (R170, Table 6.2). -/
def localWindow (g : Nat) : Nat := 4 + g

/-- Do n bytes from a lie in engine g's local window? -/
def inLocal (s : State) (g a n : Nat) : Bool :=
  n ≠ 0 && addressable s a n && (match locate s a with
    | some p => p.window = localWindow g
    | none => false)

/-- Do n bytes from a lie in some glaze local window? -/
def inAnyLocal (s : State) (a n : Nat) : Bool :=
  n ≠ 0 && addressable s a n && (match locate s a with
    | some p => 4 ≤ p.window
    | none => false)

/-- A request's header (Table 7.2) and its parameters, the whole first line as a number. -/
structure GlazeHeader where
  op : Nat
  body : Nat
  waybill : Nat
  core : Nat
  reply : Nat
  tag : Nat
  params : Nat
  deriving DecidableEq, Repr

/-- Read a request's first line. -/
def readGlazeHeader (b : Bytes) : GlazeHeader :=
  let v := field b 0 64
  { op := bits v 127 120, body := bits v 119 108, waybill := bits v 107 98, core := bits v 97 89
    reply := 64 * bits v 88 72, tag := bits v 63 32, params := v }

/-- Bytes of a request's body. -/
def glazeBody (b : Bytes) : Bytes := b.drop 64

/-- Is the length right and is no header field reserved (R173)? -/
def GlazeHeader.wellFormed (h : GlazeHeader) (b : Bytes) : Bool :=
  b.length = 64 * (1 + h.body) && h.core < 288 && 1 ≤ h.op && h.op ≤ 5

/-- What a performed or failed plan request replies: status, detail, count and the lines after the first. -/
structure GlazeReply where
  status : Nat
  detail : Nat
  count : Nat
  data : Bytes
  deriving DecidableEq, Repr

/-- A reply of one line (R178). -/
def GlazeReply.failed (status detail count : Nat) : GlazeReply := ⟨status, detail, count, []⟩

/-- Bytes padded with zeros to whole lines. -/
def padLines (b : Bytes) : Bytes := b ++ zeroBytes ((64 - b.length % 64) % 64)

/-- Lines that n bytes take. -/
def linesFor (n : Nat) : Nat := (n + 63) / 64

/-- Round an exact value once to FP32 (R184). -/
def rne32 (x : Num) : Num := FloatFmt.fp32.read (FloatFmt.fp32.round .nearest x)

/-- exp2 of R92 in FP32. -/
def exp32 (x : Num) : Num := rne32 (fp32Exp2 x)

/-- The running triple of a query row (R184). -/
structure AttentionRow where
  m : Num
  l : Num
  o : List Num
  bad : Bool
  deriving DecidableEq, Repr

/-- The fields of an attention request (Table 7.6). -/
structure AttentionParams where
  pt : Nat
  tb : Nat
  te : Nat
  kvf : Nat
  qf : Nat
  rows : Nat
  h : Nat
  hpp : Nat
  hd : Nat
  sk : Num
  sv : Num
  deriving DecidableEq, Repr

/-- Read the parameters of an attention request. -/
def readAttention (v : Nat) : AttentionParams :=
  { pt := bits v 511 464, tb := bits v 463 440, te := bits v 439 416, kvf := bits v 415 412, qf := bits v 411 408
    rows := bits v 407 404 + 1, h := bits v 403 399, hpp := bits v 398 394 + 1, hd := 16 * (bits v 393 389 + 1)
    sk := FloatFmt.fp32.read (bits v 383 352), sv := FloatFmt.fp32.read (bits v 351 320) }

/-- Bytes of a key or value element, and of a query element. -/
def AttentionParams.es (p : AttentionParams) : Nat := codeBits p.kvf / 8
def AttentionParams.qs (p : AttentionParams) : Nat := codeBits p.qf / 8

/-- Lines of a query row (R183). -/
def AttentionParams.queryLines (p : AttentionParams) : Nat := linesFor (p.hd * p.qs)

/-- Is the request valid (R181, R183)? -/
def AttentionParams.valid (p : AttentionParams) (body : Nat) : Bool :=
  (p.kvf = 1 || p.kvf = 3 || p.kvf = 4) && (p.qf = 0 || p.qf = 1) && p.h < p.hpp && p.tb < p.te
    && 16 * p.hpp * p.hd * p.es ≤ 32768 && p.pt % 8 = 0 && body = 1 + p.rows * p.queryLines

/-- Numbers of a format from bytes. -/
def numbersOf (code : Nat) (b : Bytes) : List Num :=
  (unpackElements (codeBits code) (8 * b.length / max 1 (codeBits code)) (leNat b)).map (laneNum code)

/-- Query row r and its limit. -/
def AttentionParams.query (p : AttentionParams) (body : Bytes) (r : Nat) : List Num :=
  numbersOf p.qf (slice body (64 * (1 + r * p.queryLines)) (p.hd * p.qs))
def rowLimit (body : Bytes) (r : Nat) : Nat := field body (4 * r) 4

/-- Tokens of page p that query row r scores (R184). -/
def AttentionParams.tokens (p : AttentionParams) (page limit : Nat) : List Nat :=
  (countFrom (16 * page) 16).filter fun t => p.tb ≤ t && t < p.te && t < limit

/-- Address of the key row of token t in a page; the value row lies 32,768 bytes higher (R181). -/
def AttentionParams.keyRow (p : AttentionParams) (page t : Nat) : Nat := page + (16 * p.h + t % 16) * p.hd * p.es

/-- Sum of numbers onto a first one, exact. -/
def sumFrom (x : Num) (l : List Num) : Num := l.foldl Num.add x

/-- One query row over one page (R184). -/
def AttentionParams.rowStep (s : State) (p : AttentionParams) (page : Nat) (q : List Num) (ts : List Nat)
    (x : AttentionRow) : AttentionRow :=
  if ts.isEmpty || x.bad then x
  else
    let keys := ts.map fun t => numbersOf p.kvf (readExt s (p.keyRow page t) (p.hd * p.es))
    let values := ts.map fun t => numbersOf p.kvf (readExt s (p.keyRow page t + 32768) (p.hd * p.es))
    let scores := keys.map fun k => rne32 (Num.mul (rne32 (sumProducts q k none)) p.sk)
    if scores.any fun y => !y.finite then { x with bad := true }
    else
      let mn := scores.foldl Num.maximum x.m
      let c := exp32 (rne32 (Num.add x.m mn.neg))
      let w := scores.map fun y => exp32 (rne32 (Num.add y mn.neg))
      let o := (countFrom 0 p.hd).map fun d =>
        rne32 (sumFrom (Num.mul (x.o.getD d (.fin false 0 0)) c)
          (List.zipWith (fun a v => Num.mul a (v.getD d (.fin false 0 0))) w values))
      { m := mn, l := rne32 (sumFrom (Num.mul x.l c) w), o := o, bad := false }

/-- The first uncorrectable line among the key and value rows of some tokens. -/
def AttentionParams.badLine (s : State) (p : AttentionParams) (page : Nat) (ts : List Nat) : Option Nat :=
  ts.findSome? fun t =>
    (firstBad s (p.keyRow page t) (p.hd * p.es)).orElse fun _ => firstBad s (p.keyRow page t + 32768) (p.hd * p.es)

/-- The walk over the pages (R184): the rows, or the status, with the bad line of status 0x03. DESIGN CHOICE (log entry 57): `count` of
Table 7.3 is the local pages walked, one on which no query row has a token to score included. DESIGN CHOICE (log entry 60): a page
table outside the HBM3E window of the engine's die is walked all the same (R182). -/
def AttentionParams.walk (s : State) (g : Nat) (p : AttentionParams) (queries : List (List Num × Nat)) :
    List Nat → Nat → List AttentionRow → Except (Nat × Nat × Nat × Option Nat) (Nat × List AttentionRow)
  | [], scored, rows => .ok (scored, rows)
  | i :: rest, scored, rows =>
    let entry := p.pt + 8 * i
    match firstBad s entry 8 with
    | some l => .error (0x03, i, scored, some l)
    | none =>
      let e := leNat (readExt s entry 8)
      let page := bits e 47 16 * 65536
      if !bitAt e 63 || !inAnyLocal s page 65536 then .error (0x02, i, scored, none)
      else if !inLocal s g page 65536 then p.walk s g queries rest scored rows
      else
        let live := (queries.zip rows).flatMap fun x => if x.2.bad then [] else p.tokens i x.1.2
        match p.badLine s page live with
        | some l => .error (0x03, i, scored, some l)
        | none =>
          p.walk s g queries rest (scored + 1)
            (List.zipWith (fun x r => p.rowStep s page x.1 (p.tokens i x.2) r) queries rows)

/-- Bytes of a finished row: m, l, o (R184, R185). -/
def AttentionParams.rowBytes (p : AttentionParams) (x : AttentionRow) : Bytes :=
  let out (y : Num) : Bytes := leBytes (FloatFmt.fp32.round .nearest y) 4
  if x.bad then (countFrom 0 (2 + p.hd)).flatMap fun _ => leBytes FloatFmt.fp32.nanBits 4
  else out x.m ++ out x.l ++ x.o.flatMap fun y => out (Num.mul y p.sv)

/-- A read of engine g found an uncorrectable codeword (R146, R178). -/
def engineBadLine (s : State) (line : Nat) : State :=
  uncorrectable s (readFrame s line) (lineBad s line) true

/-- Lines read for plan requests (Table 17.4). -/
def notePlanLines (s : State) (g n : Nat) : State := noteLines (engineEvent s g 0x43 n) g n true

/-- The attention algorithm of engine g (R183 to R185). -/
def performAttention (s : State) (g : Nat) (h : GlazeHeader) (b : Bytes) : State × GlazeReply :=
  let p := readAttention h.params
  if !p.valid h.body then (s, .failed 0x01 0 0)
  else
    let body := glazeBody b
    let queries := (countFrom 0 p.rows).map fun r => (p.query body r, rowLimit body r)
    let zero : Num := .fin false 0 0
    let start : AttentionRow := ⟨.inf true, zero, List.replicate p.hd zero, false⟩
    let first := p.tb / 16
    let pages := countFrom first ((p.te - 1) / 16 + 1 - first)
    let note (s : State) (last scored : Nat) : State :=
      engineEvent (notePlanLines s g ((p.pt + 8 * last + 7) / 64 + 1 - (p.pt + 8 * first) / 64
        + scored * (32 * p.hd * p.es / 64))) g 0x45 scored
    match p.walk s g queries pages 0 (List.replicate p.rows start) with
    | .error (status, page, scored, line) =>
      let s := note s page scored
      (match line with
        | some l => engineBadLine s l
        | none => s, .failed status page scored)
    | .ok (scored, rows) =>
      (note s ((p.te - 1) / 16) scored, ⟨0, 0, scored, rows.flatMap p.rowBytes⟩)

/-- The fields of a gather request (Table 7.9). -/
structure GatherParams where
  src : Nat
  scl : Nat
  sf : Nat
  tf : Nat
  blocks : Nat
  stride : Nat
  n : Nat
  deriving DecidableEq, Repr

/-- Read the parameters of a gather request. -/
def readGather (v : Nat) : GatherParams :=
  { src := bits v 511 464, scl := bits v 463 416, sf := bits v 415 412, tf := bits v 411 408
    blocks := bits v 407 392, stride := bits v 391 376, n := bits v 375 360 }

/-- Bytes of a source row, and of an output row. -/
def GatherParams.rowBytes (p : GatherParams) : Nat := p.blocks * 4 * codeBits p.sf
def GatherParams.outBytes (p : GatherParams) : Nat := 64 * linesFor (4 * p.blocks * codeBits p.tf)

/-- Is the request valid (R187)? -/
def GatherParams.valid (p : GatherParams) (body : Nat) : Bool :=
  5 ≤ p.sf && p.sf ≤ 0xB && p.tf ≤ 2 && p.blocks ≠ 0 && 1 ≤ p.n && p.n ≤ 4096 && p.src % 64 = 0
    && p.rowBytes ≤ 64 * p.stride && body = (p.n + 15) / 16

/-- Bytes of one block's scale. -/
def GatherParams.scaleSize (p : GatherParams) : Nat := if codeMx p.sf then 1 else 4

/-- One output element (R188). -/
def GatherParams.element (p : GatherParams) (scale v : Nat) : Nat :=
  if codeMx p.sf then convertTo .nearest p.tf (elementValue p.sf scale v)
  else convertTo .nearest p.tf (Num.mul (Num.ofInt (signed (codeBits p.sf) v)) (FloatFmt.fp32.read scale))

/-- One output row from its source bytes and scale bytes. -/
def GatherParams.row (p : GatherParams) (src scales : Bytes) : Bytes :=
  let out := (countFrom 0 p.blocks).flatMap fun k =>
    let scale := field scales (p.scaleSize * k) p.scaleSize
    (unpackElements (codeBits p.sf) 32 (field src (4 * codeBits p.sf * k) (4 * codeBits p.sf))).map (p.element scale)
  leBytes (packElements (codeBits p.tf) out) p.outBytes

/-- The rows in index order (R188). -/
def GatherParams.gather (s : State) (g : Nat) (p : GatherParams) (body : Bytes) :
    List Nat → Except (Nat × Nat × Option Nat) Bytes
  | [] => .ok []
  | k :: rest =>
    let i := field body (4 * k) 4
    let a := p.src + 64 * p.stride * i
    let c := p.scl + p.scaleSize * (i * p.blocks)
    let n := p.scaleSize * p.blocks
    if !inLocal s g a p.rowBytes || !inLocal s g c n then .error (0x01, k, none)
    else match (firstBad s a p.rowBytes).orElse fun _ => firstBad s c n with
      | some l => .error (0x03, k, some l)
      | none =>
        match p.gather s g body rest with
        | .error e => .error e
        | .ok out => .ok (p.row (readExt s a p.rowBytes) (readExt s c n) ++ out)

/-- Gather and dequantise (R187, R188). -/
def performGather (s : State) (g : Nat) (h : GlazeHeader) (b : Bytes) : State × GlazeReply :=
  let p := readGather h.params
  if !p.valid h.body then (s, .failed 0x01 0 0)
  else
    let lines := linesFor p.rowBytes + linesFor (p.scaleSize * p.blocks)
    match p.gather s g (glazeBody b) (countFrom 0 p.n) with
    | .error (status, k, line) =>
      let s := notePlanLines s g (k * lines)
      (match line with
        | some l => engineBadLine s l
        | none => s, .failed status k 0)
    | .ok out => (notePlanLines s g (p.n * lines), ⟨0, 0, p.n, out⟩)

/-- The fields of a reduce request (Table 7.10). -/
structure ReduceParams where
  src : Nat
  vstride : Nat
  k : Nat
  bodyv : Bool
  st : Nat
  out : Nat
  b : Int
  e : Nat
  deriving DecidableEq, Repr

/-- Read the parameters of a reduce request. -/
def readReduce (v : Nat) : ReduceParams :=
  { src := bits v 511 464, vstride := bits v 463 440, k := bits v 439 428, bodyv := bitAt v 427
    st := bits v 426 424, out := bits v 423 421, b := signed 11 (bits v 420 410), e := bits v 409 394 + 1 }

/-- Bytes of a source element and of a source vector. -/
def ReduceParams.size (p : ReduceParams) : Nat := if p.st = 0 then 4 else 24
def ReduceParams.vectorBytes (p : ReduceParams) : Nat := p.e * p.size

/-- Is the request valid (R189)? -/
def ReduceParams.valid (p : ReduceParams) (body : Nat) : Bool :=
  p.st ≤ 1 && p.out ≤ 4 && p.src % 64 = 0 && (p.k ≠ 0 || p.bodyv)
    && body = (if p.bodyv then linesFor p.vectorBytes else 0)

/-- Add a source element to a sum: the sum, and the spill it raises (R102, R105). -/
def sumLedger (w : Int) (st v : Nat) (acc : Nat) : LedgerResult :=
  let x : LedgerResult := if st = 0 then toLedger w (FloatFmt.fp32.read v) else ⟨v % 2 ^ 192, false, false⟩
  if x.spill then { x with value := ledgerMarker } else addLedger acc x.value

/-- Add a source element to an engine's sum, in which an element that has spilled stays the marker (R190). -/
def addElement (w : Int) (st v : Nat) (acc : LedgerResult) : LedgerResult :=
  let r := sumLedger w st v acc.value
  if acc.spill then ⟨ledgerMarker, true, acc.nonFinite || r.nonFinite⟩ else r

/-- Add a source vector to the sums. -/
def addVector (w : Int) (st : Nat) (b : Bytes) (size : Nat) : Nat → List LedgerResult → List LedgerResult
  | _, [] => []
  | i, acc :: rest => addElement w st (field b (size * i) size) acc :: addVector w st b size (i + 1) rest

/-- A finished element (R103, R190): 24 bytes of a ledger, or the format's bytes. -/
def finishElement (w : Int) (out v : Nat) : Bytes :=
  match out with
  | 0 => leBytes v 24
  | 1 => leBytes (FloatFmt.fp64.round .nearest (ledgerValue w v)) 8
  | 2 => leBytes (FloatFmt.fp32.round .nearest (ledgerValue w v)) 4
  | 3 => leBytes (FloatFmt.bf16.round .nearest (ledgerValue w v)) 2
  | _ => leBytes (FloatFmt.fp16.round .nearest (ledgerValue w v)) 2

/-- The sums of source vectors, element by element. -/
def sumVectors (w : Int) (st size : Nat) (sources : List Bytes) (e : Nat) : List LedgerResult :=
  sources.foldl (fun acc b => addVector w st b size 0 acc) (List.replicate e ⟨0, false, false⟩)

/-- Ledger reduction (R189, R190). -/
def performReduce (s : State) (g : Nat) (h : GlazeHeader) (b : Bytes) : State × GlazeReply :=
  let p := readReduce h.params
  let n := p.vectorBytes
  if !p.valid h.body then (s, .failed 0x01 0 0)
  else
    let at' := (countFrom 0 p.k).map fun i => p.src + 64 * p.vstride * i
    if at'.any fun a => !inLocal s g a n then (s, .failed 0x01 0 0)
    else
      let s := notePlanLines s g (p.k * linesFor n)
      match at'.findSome? fun a => firstBad s a n with
      | some l => (engineBadLine s l, .failed 0x03 0 0)
      | none =>
        let sources := at'.map (fun a => readExt s a n) ++ (if p.bodyv then [slice (glazeBody b) 0 n] else [])
        let w := ledgerBase p.b (odGet s (od 0x2040 1))
        let sums := sumVectors w p.st p.size sources p.e
        let s := if sums.any (·.spill) then noteSpill s (sums.any (·.nonFinite)) else s
        (s, ⟨0, 0, p.e, sums.flatMap fun r => finishElement w p.out r.value⟩)

/-- The outer port's bank that a line written at an address of logical core n passes (R110). -/
def fillBank (s : State) (n a : Nat) : Nat := scratchBank ((coreOf s n).writtenCopy a)

/-- May the first line of a reply pass its bank's outer port now, as a depot delivery does (R112, R177)? The later lines pass in
later cycles, a line a tick. -/
def replyMayPass (s : State) (n a : Nat) : Bool := 288 ≤ n || (coreOf s n).mayTransfer (fillBank s n a) portDepot

/-- The outer ports that k lines of a reply pass (R112, R177). -/
def takeReplyPorts (s : State) (n a k : Nat) : State :=
  modCoreOf s n fun c => ((countFrom 0 k).map fun i => scratchBank (c.writtenCopy (a + 64 * i))).foldl (fun c b => c.takePort b portDepot) c

/-- Write reply lines in order; the flag says whether all were written (R177). -/
def replyLines (s : State) (n a : Nat) (b : Bytes) : Nat → State × Bool
  | 0 => (s, true)
  | k + 1 =>
    let (s, first) := fillLine s n a (slice b 0 64)
    let (s, rest) := replyLines s n (a + 64) (b.drop 64) k
    (s, first && rest)

/-- The status line of a reply (Table 7.3). -/
def statusLine (g : Nat) (h : GlazeHeader) (r : GlazeReply) : Bytes :=
  leBytes (r.detail % 2 ^ 32 * 2 ^ 96 + r.count % 2 ^ 32 * 2 ^ 64 + h.tag * 2 ^ 32 + g * 2 ^ 16 + h.op * 2 ^ 8 + r.status) 64

/-- Halt code of a status (Table 7.4). -/
def statusHalt (status : Nat) : Nat := if status = 0x01 then 0x46 else if status = 0x02 then 0x48 else 0xA6

/-- A plan reply is written, counted, and its waybill bit set (R177, R178, Table 7.12). A request that names no
reply core is answered nowhere. -/
def writeReply (s : State) (g : Nat) (h : GlazeHeader) (r : GlazeReply) : State :=
  let i := engineIndex g
  let s := if r.status = 0 then odAdd s (od i 3) 1
    else odSet (odAdd s (od i 4) 1) (od i 5) (h.op * 256 + r.status)
  if 288 ≤ h.core then s
  else
    let b := statusLine g h r ++ (if r.status = 0 then padLines r.data else [])
    let k := b.length / 64
    let (s, all) := replyLines (takeReplyPorts s h.core h.reply k) h.core h.reply b k
    let s := if r.status ≠ 0 && all then slot7Halt s h.core (statusHalt r.status) else s
    if all then setWaybill s h.core h.waybill else s

/-- A run of an engine finds a check error in what it works on (R194). -/
def noteRun (s : State) (r : EngineRun) : State :=
  if r.error then setEngine s r.engine.val { getEngine s r.engine.val with checkError := true } else s

/-- A check error of engine g is counted as a detected hardware error of the engine (R194). -/
def takeCheckError (s : State) (g : Nat) : State :=
  detectFoul (setEngine s g { getEngine s g with checkError := false }) kindEngine g (siteCode 0)

/-- What the engine makes of one plan request (R173, R178, R194). -/
def performPlan (s : State) (g : Nat) (b : Bytes) : State × GlazeReply :=
  let h := readGlazeHeader b
  if (getEngine s g).checkError then (takeCheckError s g, .failed 0x04 0 0)
  else if !h.wellFormed b then (s, .failed 0x01 0 0)
  else match h.op with
    | 1 => performAttention s g h b
    | 2 => performGather s g h b
    | 3 => performReduce s g h b
    | _ => (s, .failed 0x01 0 0)

/-- Do the engines serve plan requests: in a stage, before its rest (R176)? -/
def plansServed (s : State) : Bool := s.stage.phase = .stage && !s.stage.unready

/-- The oldest held plan request of engine g is performed and answered, where its operation is one of `ops`
(R174); it then leaves the engine. None is performed in the rest (R176), nor in a reset of the engine's die (R464). A reply whose
first line finds the port taken waits (R112, R177). -/
def performHeld (s : State) (run : EngineRun) (ops : Nat → Bool) : State :=
  let g := run.engine.val
  match (getEngine s g).held with
  | [] => s
  | q :: rest =>
    let h := readGlazeHeader q.bytes
    if !ops h.op || !plansServed s || !memoryRuns s g then s
    else if !replyMayPass s h.core h.reply then modCoreOf s h.core fun c => c.waitPort (fillBank s h.core h.reply) portDepot
    else
      let (s, r) := performPlan (noteRun s run) g q.bytes
      let s := writeReply s g h r
      setEngine s g { getEngine s g with held := rest }

/-- Sort place of a waiting request: arrival, then inbox first, then logical core (R174). -/
def GlazeReq.before (x y : GlazeReq) : Bool :=
  let who (q : GlazeReq) : Nat := match q.source with
    | none => 0
    | some (c, _) => 1 + c
  x.arrived < y.arrived || (x.arrived = y.arrived && who x < who y)

/-- Put an arriving request in its place: behind every request that does not come after it. -/
def insertReq (q : GlazeReq) : List GlazeReq → List GlazeReq
  | [] => [q]
  | x :: r => if q.before x then q :: x :: r else x :: insertReq q r

/-- Inbox bytes that an engine holds. -/
def Engine.inboxBytes (e : Engine) : Nat :=
  e.waiting.foldl (fun t q => if q.source.isNone then t + q.bytes.length else t) e.inbox.length

/-- Keep the inbox high mark (41gg.07). -/
def noteInbox (s : State) (g : Nat) : State :=
  let n := (getEngine s g).inboxBytes
  let id := od (engineIndex g) 7
  if odGet s id < n then odSet s id n else s

/-- Bytes of a consignment go in order to engine g's inbox (R281, R172). -/
def fillInbox (s : State) (g : Nat) (b : Bytes) : State :=
  noteInbox (setEngine s g { getEngine s g with inbox := (getEngine s g).inbox ++ b }) g

/-- The engine whose controller holds a walk's lowest external byte (R172). DESIGN CHOICE (log entry 57): R157 has that byte lie in
a local window and gives no outcome where it lies in an interleaved one; the request goes to that interface's engine. -/
def requestEngine (s : State) (o : DepotOp) : Option Nat :=
  (locate s ((readDepot o.descriptor).extBounds o.offset).1.toNat).map (·.iface)

/-- A core request has been read whole by its walk and waits for engine g (R157, R172). -/
def depotRequest (s : State) (n d g : Nat) : Option Bytes :=
  match (coreOf s n).depots.find? fun o => o.desc = d with
  | none => none
  | some o =>
    let x := readDepot o.descriptor
    let waiting := (getEngine s g).waiting.any fun q => q.source = some (n, d)
    if x.kind = 1 && !o.stopped && !o.accepted && x.lines ≤ o.next && !waiting && requestEngine s o = some g then
      some (o.kept.flatMap (·.2))
    else none

/-- Shows a dynamic operation's report (R193, Table 7.12). -/
def reportDynamic (s : State) (g op tag status copied : Nat) : State :=
  let i := engineIndex g
  odSet (odAdd s (od i 0x10) 1) (od i 0x11) (status + op * 2 ^ 8 + copied % 65536 * 2 ^ 16 + tag * 2 ^ 32)

/-- A dynamic operation's fields (Table 7.11). -/
structure CopyParams where
  n : Nat
  remote : Bool
  dev : Nat
  dg : Nat
  deriving DecidableEq, Repr

/-- Read the parameters of a dynamic operation. -/
def readCopy (v : Nat) : CopyParams :=
  { n := bits v 511 505, remote := bitAt v 504, dev := bits v 503 484, dg := bits v 483 479 }

/-- Pair i of a body: source and destination page. -/
def copyPair (body : Bytes) (i : Nat) : Nat × Nat := (field body (16 * i) 6, field body (16 * i + 8) 6)

/-- Is a dynamic operation valid (R173, R191, R192)? Pages of another device overlap none of this one. DESIGN CHOICE (log entry 60): a
reserved dg of 24 to 31 is refused in a remote operation alone, where dg has a meaning. -/
def copyValid (s : State) (g : Nat) (b : Bytes) : Bool :=
  let h := readGlazeHeader b
  let p := readCopy h.params
  let pairs := (countFrom 0 p.n).map (copyPair (glazeBody b))
  h.wellFormed b && 1 ≤ p.n && p.n ≤ 64 && h.body = (p.n + 3) / 4 && h.waybill = 0 && h.core = 0 && h.reply = 0
    && !(p.remote && (h.op = 5 || 24 ≤ p.dg))
    && pairs.all (fun x => x.1 % 65536 = 0 && x.2 % 65536 = 0 && inLocal s g x.1 65536)
    && (h.op = 5 || (p.remote && !isOwn s p.dev) || pairs.all fun x => pairs.all fun y => x.2 ≠ y.1)

/-- Is a destination page refused at engine g (R192, R389)? -/
def pageRefused (s : State) (g a n : Nat) : Bool :=
  !inLocal s g a n || touchesGreen s a n || (sealedAt s a n).isSome

/-- Lines read or written for dynamic operations. -/
def noteDynamicLines (s : State) (g n : Nat) : State := noteLines (engineEvent s g 0x44 n) g n false

/-- The first line of what a step of a pair reads that holds an uncorrectable codeword: the whole page at its start. -/
def copyBad (s : State) (src line n : Nat) : Option Nat :=
  if line = 0 then firstBad s src 65536 else firstBad s (src + 64 * line) (64 * n)

/-- The next line of a local pair: the status where the pair ends with it (R192). -/
def copyLocal (s : State) (g src dst line : Nat) : State × Option Nat :=
  match copyBad s src line 1 with
  | some l => (uncorrectable s (readFrame s l) (lineBad s l) false, some 0x03)
  | none =>
    if pageRefused s g dst 65536 then (s, some 0x05)
    else
      let s := noteDynamicLines (extWrite s (dst + 64 * line) (readExtLine s (src + 64 * line))) g 2
      if line = 1023 then (odAdd s (od (engineIndex g) 0x12) 1, some 0) else (s, none)

/-- The next two lines of a remote pair: a bale of kind 0x05 with 8 bytes of destination, the engine above the address, and 128 of
data (R192, log entry 27). -/
def copyRemote (s : State) (g : Nat) (p : CopyParams) (tag src dst line : Nat) : State × Option Nat :=
  match copyBad s src line 2 with
  | some l => (uncorrectable s (readFrame s l) (lineBad s l) false, some 0x03)
  | none =>
    let a := p.dg * 2 ^ 48 + dst + 64 * line
    let s := noteDynamicLines s g 2
    (sendDynamic s p.dev 0x05 tag (leBytes a 8 ++ readExt s (src + 64 * line) 128), if line = 1022 then some 0 else none)

/-- The transfer of a remote pair: a new one at its first line. -/
def pairTag (s : State) (g : Nat) (d : DynOp) : State × DynOp :=
  if d.line ≠ 0 then (s, d)
  else
    let (s, tag) := newTag s (fromEngine g)
    (s, { d with sent := d.sent ++ [(tag, 0)] })

/-- The operation after a step of its pair moved n lines: the pair goes on, or has ended with a status. A remote pair counts as
copied when no part of its transfer has been refused (R193). -/
def DynOp.step (d : DynOp) (n : Nat) (remote : Bool) : Option Nat → DynOp
  | none => { d with line := d.line + n }
  | some st => { d with
    next := d.next + 1
    line := 0
    worst := max d.worst st
    copied := d.copied + flag (!remote && st = 0)
    sent := if st = 0 then d.sent else d.sent.dropLast ++ (d.sent.getLast?.map fun x => (x.1, max x.2 st)).toList }

/-- Pages that an operation has copied (R193). -/
def DynOp.pages (d : DynOp) : Nat := d.copied + (d.sent.filter fun x => x.2 = 0).length

/-- The report of engine g's oldest dynamic operation, which then leaves the engine. -/
def finishDynamic (s : State) (g : Nat) (d : DynOp) (rest : List DynOp) (status : Nat) : State :=
  let h := readGlazeHeader d.bytes
  reportDynamic (setEngine s g { getEngine s g with dynamic := rest }) g h.op h.tag status d.pages

/-- The next lines of the pair that engine g's oldest dynamic operation works on. -/
def copyStep (s : State) (g : Nat) (d : DynOp) (rest : List DynOp) : State :=
  let p := readCopy (readGlazeHeader d.bytes).params
  let (src, dst) := copyPair (glazeBody d.bytes) d.next
  let (s, d) := if p.remote then pairTag s g d else (s, d)
  -- the operation is stored before its lines move: a transfer that is dropped at once finds it
  let s := setEngine s g { getEngine s g with dynamic := d :: rest }
  let tag := (d.sent.getLast?.map (·.1)).getD 0
  let (s, status) :=
    if (getEngine s g).checkError then (takeCheckError s g, some 0x04)
    else if p.remote then copyRemote s g p tag src dst d.line
    else copyLocal s g src dst d.line
  match (getEngine s g).dynamic with
  | [] => s
  | d :: rest =>
    let d := d.step (if p.remote then 2 else 1) p.remote status
    if p.n ≤ d.next && !p.remote then finishDynamic s g d rest d.worst
    else setEngine s g { getEngine s g with dynamic := d :: rest }

/-- The next step of engine g's oldest dynamic operation of code `op` (R180, R191 to R194): the next line of its pair, or its
report where every pair is done. It is suspended while a plan request is held or waits, and in a reset of the engine's die (R464). -/
def dynamicStep (s : State) (run : EngineRun) (op : Nat) : State :=
  let g := run.engine.val
  let e := getEngine s g
  match e.dynamic with
  | [] => s
  | d :: rest =>
    let h := readGlazeHeader d.bytes
    let p := readCopy h.params
    if h.op ≠ op || !memoryRuns s g || !e.held.isEmpty || !e.waiting.isEmpty || odGet s (od (engineIndex g) 2) ≠ 1 then s
    else if d.next = 0 && d.line = 0 && !copyValid s g d.bytes then finishDynamic s g d rest 0x01
    else if p.n ≤ d.next then (if windowIdle s p.dev then finishDynamic s g d rest d.worst else s)
    else copyStep (noteRun s run) g d rest

/-- A request reaches engine g (R172, R174). DESIGN CHOICES (log entry 60): a fabric request is as many whole lines of the inbox as the
command names, whatever its header's body field; a steward request of an operation that is not the steward's, which R172 calls
invalid, is reported as a dynamic operation with status 0x01; one that comes while four are held is not taken. An engine in state 2
takes none (R194). -/
def requestArrives (s : State) (g : Nat) (source : GlazeSource) (request : Bytes) : State :=
  let e := getEngine s g
  match source with
  | .depot core desc =>
    if !plansServed s then s
    else match depotRequest s core.val (32 + desc.val) g with
    | none => s
    | some b =>
      if b ≠ request then s
      else setEngine s g { e with waiting := insertReq ⟨some (core.val, 32 + desc.val), b, now s⟩ e.waiting }
  | .fabric =>
    if !plansServed s || request.length = 0 || request.length % 64 ≠ 0 || e.inbox.take request.length ≠ request then s
    else setEngine s g { e with
      inbox := e.inbox.drop request.length
      waiting := insertReq ⟨none, request, now s⟩ e.waiting }
  | .steward =>
    let h := readGlazeHeader request
    if odGet s (od (engineIndex g) 2) ≠ 1 then s
    else if h.op ≠ 4 && h.op ≠ 5 then reportDynamic s g h.op h.tag 0x01 0
    else if 4 ≤ e.dynamic.length then s
    else setEngine s g { e with dynamic := e.dynamic ++ [⟨request, 0, 0, 0, 0, []⟩] }

/-- Engine g accepts its oldest waiting plan request while fewer than 10 are held (R174, R195). -/
def acceptRequest (s : State) (g : Nat) : State :=
  let e := getEngine s g
  match e.waiting with
  | [] => s
  | q :: rest =>
    if !plansServed s || !memoryRuns s g || 10 ≤ e.held.length || odGet s (od (engineIndex g) 2) ≠ 1 then s
    else
      let s := setEngine s g { e with waiting := rest, held := e.held ++ [q] }
      let s := match q.source with
        | some (n, d) => modDepot s n d fun o => { o with accepted := true }
        | none => s
      let id := od (engineIndex g) 6
      let s := if odGet s id < e.held.length + 1 then odSet s id (e.held.length + 1) else s
      noteTrackers s

/-- Requests of an inbox's bytes, the last one perhaps not whole yet: at most `fuel`. -/
def requestsIn : Nat → Bytes → Nat
  | 0, _ => 0
  | n + 1, b => if b.isEmpty then 0 else 1 + requestsIn n (b.drop (64 * (1 + (readGlazeHeader b).body)))

/-- Core requests whose walk has ended and that engine g has not been shown yet. -/
def walkedRequests (s : State) (g : Nat) : Nat :=
  allCores.foldl (fun t n => t + ((coreOf s n).depots.filter fun o => (depotRequest s n o.desc g).isSome).length) 0

/-- At the start of the rest engine g abandons every plan request that it has not answered (R176). -/
def abandonRequests (s : State) (g : Nat) : State :=
  let e := getEngine s g
  let n := e.waiting.length + e.held.length + requestsIn 1024 e.inbox + walkedRequests s g
  if n = 0 then s
  else
    let s := setEngine s g { e with waiting := [], held := [], inbox := [] }
    setCause (odAdd s (od (engineIndex g) 8) n) causeLate

/-- GLAZE_REQUEST_ARRIVE (R174). -/
def execGlazeRequestArrive (engine : EngineId) (source : GlazeSource) (request : Bytes) (s : State) :
    Host.Outcome State Fault Refusal :=
  .next (requestArrives s engine.val source request)

/-- GLAZE_ACCEPT (R174). -/
def execGlazeAccept (engine : EngineId) (s : State) : Host.Outcome State Fault Refusal :=
  .next (acceptRequest s engine.val)

/-- ATTENTION (R184): it also answers a held request whose operation the engine does not know (R173). -/
def execAttention (engine : EngineRun) (s : State) : Host.Outcome State Fault Refusal :=
  .next (performHeld s engine fun op => op ≠ 2 && op ≠ 3)

/-- GATHER (R188). -/
def execGather (engine : EngineRun) (s : State) : Host.Outcome State Fault Refusal :=
  .next (performHeld s engine fun op => op = 2)

/-- LEDGER_REDUCE (R190). -/
def execLedgerReduce (engine : EngineRun) (s : State) : Host.Outcome State Fault Refusal :=
  .next (performHeld s engine fun op => op = 3)

/-- PAGE_COPY (R192). -/
def execPageCopy (engine : EngineRun) (s : State) : Host.Outcome State Fault Refusal :=
  .next (dynamicStep s engine 4)

/-- COMPACTION (R192). -/
def execCompaction (engine : EngineRun) (s : State) : Host.Outcome State Fault Refusal :=
  .next (dynamicStep s engine 5)

end Sys2Proof.Machine
end

