-- ==== Sys2Proof/Machine/Issue.lean ====
section
/-! DEFINITION. Issuing: what halts or stalls a bundle or a single operation, what its issue does, loop
nests, branch regions and the post bundle (R56 to R76, R79 to R81, R152, Tables 2.11 and 3.14). -/

namespace Sys2Proof.Machine

/-- The checks of R152 on descriptor d of the active bank, in order: the first that fails. -/
def depotFault (s : State) (c : Core) (d : Nat) (offset : BitVec 64) : Option Nat :=
  let x := readDepot (c.descriptor c.bank d)
  let inbound := inboundDesc d
  let e0 := (x.ext : Int) + offset.toInt
  if !x.valid || x.reserved inbound || e0 % 64 ≠ 0 then some 0x46
  else if c.inFlight.getLsbD d then some 0x47
  else
    let (lo, hi) := x.extBounds offset
    let a := lo.toNat
    let n := (hi - lo + 1).toNat
    let unmapped := lo < 0 || !mappedRange s a n || touchesBack s a n || touchesContextHole s a n
      || (!inbound && (touchesPointers s a n || (sealedAt s a n).isSome))
    if unmapped then some 0x48
    else
      let (slo, shi) := x.spBounds
      if slo < 0 || (scratchEnd : Int) ≤ shi then some 0x40 else none

/-- R152 findings of an operation; none where its own registers are not readable yet. -/
def depotFindings (s : State) (c : Core) (o : SlotOp) : List Finding :=
  if !(c.registerHazards (isB0 s) o).isEmpty then []
  else match o with
    | .l (.dld desc useX x) =>
      match depotFault s c desc.toNat (depotOffset c useX x) with
      | some f => [.halt f 4]
      | none => []
    | .t (.dst desc useX x) =>
      match depotFault s c (32 + desc.toNat) (depotOffset c useX x) with
      | some f => [.halt f 5]
      | none => []
    | _ => []

/-- A detected scratchpad error on an LD or LDX (R125): the word. -/
def loadError (c : Core) (o : SlotOp) : Option Nat :=
  match o with
  | .l (.ld _ g off) =>
    let a := c.operandAddress g off 64
    if a < 0 then none else c.readError a.toNat 512
  | .l (.ldx _ g off) =>
    let a := c.operandAddress g off 8
    if a < 0 then none else c.readError a.toNat 8
  | _ => none

/-- The fault with the lowest code, the first slot's where codes are equal (R81). -/
def lowestFault : List (Nat × Nat) → Option (Nat × Nat)
  | [] => none
  | f :: r => match lowestFault r with
    | none => some f
    | some g => if g.1 < f.1 then some g else some f

/-- The loop nest's step after a bundle with loop-end mask E at address pc (R66): levels, next address; none
for a nesting fault. -/
def stepNest (ends pc : Nat) : Nat → Nat → Table LoopLevel → Option (Table LoopLevel × Nat)
  | 0, _, loops => some (loops, pc + 1)
  | n + 1, i, loops =>
    let l := Table.look loops LoopLevel.reset i
    if bitAt ends i then
      if l.trips = 0 then none
      else if 1 < l.trips.toNat then
        some (Table.put loops LoopLevel.reset i ⟨l.trips - 1, l.idx + 1, l.start⟩, l.start)
      else stepNest ends pc n (i + 1) (Table.put loops LoopLevel.reset i ⟨0, 0, l.start⟩)
    else if l.trips ≠ 0 && 2 ^ (i + 1) ≤ ends then none
    else stepNest ends pc n (i + 1) loops

/-- The level a bundle opens, by its S slot. -/
def openedLevel (ops : List SlotOp) : Option (Nat × BitVec 24) :=
  ops.findSome? fun o => match o with
    | .s (.loop level trips) => some (level.toNat, trips)
    | _ => none

/-- The branch of a bundle. -/
def branchOf (ops : List SlotOp) : Option SOp :=
  ops.findSome? fun o => match o with
    | .s (.br k sense predict n t j) => some (.br k sense predict n t j)
    | _ => none

/-- Does a bundle hold an M operation? -/
def hasMatrix (ops : List SlotOp) : Bool := ops.any fun o => match o with
  | .m _ => true
  | _ => false

/-- First and last address of the path that issues; empty where the last lies before the first (R68). -/
def BranchRegion.path (g : BranchRegion) : Nat × Nat :=
  if g.taken then (g.branch + g.t, g.branch + g.j - 1) else (g.branch + 1, g.branch + g.t - 1)

/-- Has the path no bundle? -/
def BranchRegion.pathEmpty (g : BranchRegion) : Bool := g.path.2 < g.path.1

/-- Active levels as a mask. -/
def levelMask (loops : Table LoopLevel) : Nat :=
  (countFrom 0 4).foldl (fun m i => if (Table.look loops LoopLevel.reset i).trips ≠ 0 then setBit m i else m) 0

/-- Loop levels after the bundle's LOOP, if it holds one. -/
def loopsAfter (c : Core) (ops : List SlotOp) : Table LoopLevel :=
  match openedLevel ops with
  | some (i, t) => Table.put c.loops LoopLevel.reset i ⟨t, 0, c.pc + 1⟩
  | none => c.loops

/-- Faults that a bundle's header and layout show (R66, R68, R72, R75, R76, Table 3.14). `isJoin`: the bundle
issues as its region's join. DESIGN CHOICE (log entry 57): a halt 0x10 names slot 0, the header, where an M operation or a LOOP
is what R72 forbids. -/
def headerFaults (c : Core) (h : Header) (ops : List SlotOp) (isJoin : Bool) : List (Nat × Nat) :=
  let br := (branchOf ops).isSome
  let loops := loopsAfter c ops
  let step := stepNest h.ends c.pc 4 0 loops
  let opensAndEnds := match openedLevel ops with
    | some (i, _) => bitAt h.ends i
    | none => false
  let nest := step.isNone || opensAndEnds
  let shadow := c.inShadow
  (if 3 ≤ h.cls then [(0x07, 0)] else [])
  ++ (if nest then [(0x0C, 0)] else [])
  ++ (if !c.entered && h.cls ≠ 1 then [(0x11, 0)] else [])
  ++ (match c.region with
      | none =>
        (if br != decide (h.marker = markBranch) || 2 ≤ h.marker then [(0x0D, 0)] else [])
        ++ (if br && (countFrom 0 4).any (fun i => bitAt h.ends i) then [(0x0E, 0)] else [])
      | some g =>
        (if br then [(0x0F, 1)] else [])
        ++ (if !br && h.marker = markBranch then [(0x0D, 0)] else [])
        ++ (if isJoin then (if h.marker ≠ markJoin && !br then [(0x0E, 0)] else [])
            else
              let last := c.pc = g.path.2
              let next := (step.map (·.2)).getD 0
              let left := match step with
                | some (l, _) => levelMask l
                | none => 0
              (if h.marker ≠ markBranch && h.marker ≠ (if last then markEnd else markNone) then [(0x0E, 0)] else [])
              ++ (if (countFrom 0 4).any (fun i => bitAt h.ends i && bitAt g.levels i) then [(0x0E, 0)] else [])
              ++ (if last && next = c.pc + 1 && left ≠ g.levels then [(0x0E, 0)] else [])))
  ++ (if shadow && (hasMatrix ops || br || (openedLevel ops).isSome || h.ends ≠ 0 || h.cls = 2) then [(0x10, 0)] else [])
  ++ (if h.cls = 2 then
        let active := match step with
          | some (l, _) => levelMask l ≠ 0
          | none => false
        (if active || br || c.region.isSome then [(0x13, 0)] else [])
      else [])

/-- Is everything done that a post bundle waits for (R76, R122)? -/
def postReady (c : Core) (e : Env) : Bool :=
  (c.mops.all fun m => m.complete e.b0 c.cycle) && (c.drains.all (·.landed)) && c.depots.isEmpty && c.mirrors.isEmpty

/-- What an issue attempt comes to. -/
inductive Verdict where
  | issue
  /-- Halt, at once or held in a shadow window; with the detection's site. -/
  | halt (code slot : Nat) (site : Option Nat)
  | deferred (h : HaltInfo)
  | stall (cause resource : Nat)
  deriving DecidableEq, Repr

/-- The first wait among findings. -/
def firstWait : List Finding → Option (Nat × Nat)
  | [] => none
  | .wait c r :: _ => some (c, r)
  | _ :: r => firstWait r

/-- Faults among findings: in scheduled mode the hazards too. -/
def faultsOf (scheduled : Bool) (f : List Finding) : List (Nat × Nat) :=
  f.filterMap fun x => match x with
    | .halt c s => some (c, s)
    | .hazard c s => if scheduled then some (c, s) else none
    | .wait _ _ => none

/-- Is a hazard among findings? -/
def hasHazard (f : List Finding) : Bool := f.any fun x => match x with
  | .hazard _ _ => true
  | _ => false

/-- Does the way of the consignment that sets a waybill bit of logical core n cross between regions at different steps (R223, R224)? -/
def crossesSteps (s : State) (n bit : Nat) : Bool :=
  let stop := physOf s n % 13
  (runningMesh s (n / 12) stop).any fun e => e.output = portOwn && e.waybill = bit && pathCrosses s 40 (n / 12) stop e

/-- A wait at a waybill bit whose consignment comes over a cross-step crossing is a wait for that crossing, and so is one for a depot
where the core's row is not at the memory's clock (Table 2.11, Table 17.9). DEDUCED (log entry 58). -/
def nameCrossing (s : State) (n : Nat) (f : Finding) : Finding :=
  match f with
  | .wait 1 bit => if crossesSteps s n bit then .wait 3 0 else f
  | .wait 2 _ => if rowStep s (n / 12) ≠ 0 then .wait 3 0 else f
  | _ => f

/-- Everything that keeps the operations of one bundle from issuing: each for itself, and against each other (R50 to R52). -/
def findings (s : State) (n : Nat) (ops : List SlotOp) : List Finding :=
  let c := coreOf s n
  (ops.flatMap fun o => ((c.checkSlot (envOf s n) c.inShadow o) ++ depotFindings s c o).map (nameCrossing s n))
    ++ c.pairFindings ops

/-- Does a slot show a halt of its own? -/
def slotHalts (f : List Finding) (slot : Nat) : Bool := f.any fun x => match x with
  | .halt _ i => i = slot
  | _ => false

/-- The detected hardware error of operations whose slots show no fault of their own: code, slot and word (R81, R82, R125). -/
def hardwareFault (c : Core) (ops : List SlotOp) (coding : List (Nat × Nat)) (found : List Finding) :
    Option (Nat × Nat × Option Nat) :=
  let sound := ops.filter fun o => !slotHalts found o.number && !(coding.any fun f => f.2 = o.number)
  (sound.findSome? fun o => (loadError c o).map fun w => (0xA0, o.number, some w)).or
    (sound.findSome? fun o => if c.registerError o then some (0xA5, o.number, none) else none)

/-- The halt detected in an earlier cycle that takes effect at this issue, the first one (R79, R81). -/
def Core.lateHalt (c : Core) : Option HaltInfo := c.deferred.head?.filter fun d => d.cycle < c.cycle

/-- Does a bundle whose shadow flag is 0, or a seventh one, come in an unresolved window (R71, R72)? -/
def windowBreach (c : Core) (h : Header) : Bool := match c.region with
  | some g => !g.resolved && (!h.shadow || 6 ≤ g.shadowBundles)
  | none => false

/-- Judge what is to issue, whose encoding shows the faults `coding`; `post`: a post bundle. A breach of the window stalls an
interlock core to r; then come the waits of both modes, where the encoding is sound; then a halt detected in an earlier cycle;
then the hazards that stall an interlock core; then a detected hardware error, and of the other faults the lowest code (R52,
R71, R79, R81, Table 2.11; log entry 17). Halt 0x10 is for what a window holds, which a breaching bundle is not in. -/
def judgeOps (s : State) (n : Nat) (coding : List (Nat × Nat)) (breach post : Bool) (ops : List SlotOp) : Verdict :=
  let e := envOf s n
  let c := coreOf s n
  let found := findings s n ops
  let coding := if breach then (0x62, 0) :: coding.filter (fun f => f.1 ≠ 0x10) else coding
  if breach && e.interlock then .stall 5 0
  else
    match if coding.isEmpty then firstWait found else none with
    | some (cause, resource) => .stall cause resource
    | none =>
      if coding.isEmpty && post && !postReady c e then .stall 7 0
      else
        match c.lateHalt with
        | some d => .deferred d
        | none =>
          if coding.isEmpty && e.interlock && hasHazard found then .stall 4 0
          else if (firstWait found).isSome then faultOf c coding [] (!e.interlock) []
          else faultOf c coding found (!e.interlock) ops
where
  /-- The fault of what does not wait, or none. -/
  faultOf (c : Core) (coding : List (Nat × Nat)) (found : List Finding) (scheduled : Bool) (ops : List SlotOp) : Verdict :=
    match hardwareFault c ops coding found with
    | some (code, slot, word) => .halt code slot word
    | none =>
      match lowestFault (coding ++ faultsOf scheduled found) with
      | some (code, slot) => .halt code slot none
      | none => .issue

/-- Judge a bundle. -/
def judge (s : State) (n : Nat) (h : Header) (ops : List SlotOp) (badSlots : List Nat) (isJoin : Bool) : Verdict :=
  let c := coreOf s n
  judgeOps s n (headerFaults c h ops isJoin ++ badSlots.map (fun i => (i, i)) ++ ops.flatMap (·.encodingFaults))
    (windowBreach c h) (h.cls = 2) ops

/-- Halt info of the bundle at pc. -/
def haltHere (c : Core) (code slot : Nat) : HaltInfo :=
  { code := code, slot := slot, bank := c.bank, address := c.pc, shadow := c.inShadow, cycle := c.cycle }

/-- A fault of the bundle at pc: a halt, or held to the resolution cycle in a shadow window unless it is a
detected hardware error (R74). -/
def faultBundle (s : State) (n code slot : Nat) (word : Option Nat) : State :=
  let c := coreOf s n
  let h := haltHere c code slot
  if c.inShadow && !hardwareCode code then
    modCoreOf s n fun c => { c.modRegion fun g => { g with held := some h } with stall := some ⟨5, 0, none⟩ }
  else
    let s := match word with
      | some w => if code = 0xA0 then noteScratchError s n w else s
      | none => s
    takeHaltAt s n h (word.map fun w => if code = 0xA0 then siteWord w else w)

/-- Registers that two slots of one bundle both write: free values (log entry 18). -/
def freeDoubles (s : State) (n : Nat) (ops : List SlotOp) : State :=
  let w := ops.flatMap (·.writes)
  let twice := (countFrom 0 40).filter fun r => 2 ≤ (w.filter (· = r)).length
  twice.foldl (fun s r =>
    let s' := modCoreOf s n fun c =>
      if r < 8 then c.setX r (Config.freeX s.fresh) else c.setV (r - 8) (Config.freeV s.fresh)
    { s' with fresh := s'.fresh + 1 }) s

/-- Slots that a bundle fills, bit 0 S to bit 5 Y. -/
def slotMask (ops : List SlotOp) : Nat := ops.foldl (fun m o => setBit m (o.number - 1)) 0

/-- Count a bundle's slots by slot. -/
def addSlots (t : Table Nat) (mask : Nat) : Table Nat :=
  (setBits mask 6).foldl (fun t i => Table.put t 0 i (Table.look t 0 i + 1)) t

/-- Cycle and value of the branch's K register (R69). -/
def openRegion (c : Core) (pre : Core) (k : BitVec 2) (sense predict : Bool) (n t j : BitVec 10) : Core :=
  let r := max pre.cycle (pre.readyAt (resK k.toNat))
  let known := r ≤ pre.cycle + 1
  let g : BranchRegion :=
    { branch := pre.pc, n := n.toNat, t := t.toNat, j := j.toNat, k := k.toNat, sense := sense, predict := predict
      issued := pre.cycle, resolution := r, resolved := known
      taken := if known then c.k k.toNat = sense else predict
      counter := 0, pathDone := false, discardUntil := 0, shadowBundles := 0, saved := c.regs, hold := []
      clears := [], held := none, savedDone := c.done, savedFlight := c.inFlight, savedIssued := c.issuedInStage
      savedStores := c.stores, levels := levelMask c.loops, slots := [] }
  { c with region := some { g with pathDone := g.pathEmpty }
           pc := if g.pathEmpty then g.branch + g.j else g.path.1 }

/-- Bookkeeping of an issued bundle or operation: the slots it filled and the cycle it took (R35, R428, R429); of a bundle whose cycle
halts the core no slot is retired (Table 17.5). -/
def Core.noteIssue (c : Core) (mask : Nat) : Core :=
  let c := { c with issued := c.cycle + 1, lastBundle := c.pc % 4096 + 4096 * flag c.bank, lastSlots := mask, entered := true }
  if c.state = .halted then c
  else if c.inShadow then c.modRegion fun g => { g with shadowBundles := g.shadowBundles + 1, slots := addSlots g.slots mask }
  else { c with retiredSlots := addSlots c.retiredSlots mask }

/-- The bundle issues: every slot's effect from the state before it, then the loop nest, the address and the
branch region (R58, R66, R68, R70). An operation issued alone is a bundle of that operation (log entry 16). DESIGN CHOICE (log
entry 57): the counters step after the slots' effects, so a bundle with a CSRC, and a bit that its Y slot consumes where Y stands
after S, count under the source it selects; R35 and R58 say neither. -/
def issueOps (s : State) (n : Nat) (h : Header) (ops : List SlotOp) (nest isJoin : Bool) : State :=
  let e := envOf s n
  let pre := coreOf s n
  let shadow := pre.inShadow
  let stochastic := (ops.filter fun o => match o with
    | .v v => v.stochastic
    | .m (.drain _ mode _ rnd _ _ _) => mode = 2 && rnd.toNat = 1
    | _ => false).length
  let s := ops.foldl (fun s o => effectSlot s n e pre shadow o) s
  let s := freeDoubles s n ops
  let s := coreEvent s n 0x06 1
  let s := if shadow then coreEvent s n 0x0B 1 else s
  let s := if 0 < stochastic then coreEvent s n 0x11 stochastic else s
  modCoreOf s n fun c =>
    let c := (c.stepCounters 1).noteIssue (slotMask ops)
    let next := if nest then (stepNest h.ends pre.pc 4 0 c.loops).getD (c.loops, pre.pc + 1) else (c.loops, pre.pc)
    let c := { c with loops := next.1, pc := next.2 }
    -- the join closes its region; a path's last bundle ends the path
    let c := match c.region with
      | some g =>
        if isJoin then { c with region := none }
        else if nest && pre.pc = g.path.2 && next.2 = pre.pc + 1 then
          { c.modRegion fun g => { g with pathDone := true } with pc := g.branch + g.j }
        else c
      | none => c
    let c := match branchOf ops with
      | some (.br k sense predict m t j) => openRegion c pre k sense predict m t j
      | _ => c
    if h.cls = 2 then { c with state := .atPost } else c

/-- The core's entry into AT POST is timed for the post margin (R435). -/
def noteAtPost (s : State) (n : Nat) (h : Header) : State :=
  if h.cls = 2 then modCoreOf s n fun c => { c with postTime := now s } else s

/-- Carry out a verdict on the operations `ops`; `waiting` is what waits in a stall. -/
def carryOut (s : State) (n : Nat) (v : Verdict) (h : Header) (ops : List SlotOp) (nest isJoin : Bool)
    (waiting : Option SlotOp) : State :=
  match v with
  | .issue => noteAtPost (issueOps s n h ops nest isJoin) n h
  | .halt code slot site => faultBundle s n code slot site
  | .deferred d => settleDeferred (takeHalt (modCoreOf s n fun c => { c with deferred := c.deferred.drop 1 }) n d) n
  | .stall cause resource => modCoreOf s n fun c => { c with stall := some ⟨cause, resource, waiting⟩ }

/-- May the core issue now: RUNNING, not stalled, no held fault, not discarding, no branch due to resolve
(R52, R73, R74)? -/
def mayIssue (c : Core) : Bool :=
  c.state = .running && c.stall.isNone && (match c.region with
    | some g => g.held.isNone && g.discardUntil ≤ c.cycle && (g.resolved || c.cycle < g.resolution)
    | none => true)

/-- May logical core n issue now: in its stage, before the rest (R240)? -/
def canIssue (s : State) (n : Nat) : Bool := inStage s && mayIssue (coreOf s n)

/-- Has the open region overrun: its counter passed N while its path, its discard or its branch is not done (R70,
R73)? -/
def overrun (c : Core) : Bool :=
  match c.region with
  | some g => g.n < g.counter && (!g.pathDone || c.cycle < g.discardUntil || (!g.resolved && c.cycle < g.resolution))
  | none => false

/-- Does an overrun halt logical core n now: in scheduled mode, in the cycle after the counter reached N (R70, R73)? -/
def overrunHalts (s : State) (n : Nat) : Bool :=
  let c := coreOf s n
  inStage s && !interlockMode s && c.state = .running && c.stall.isNone && overrun c

/-- The halt of an overrun. -/
def haltOverrun (s : State) (n : Nat) : State := takeHalt s n { haltHere (coreOf s n) 0x63 0 with shadow := false }

/-- Fetch and issue the bundle at pc. -/
def fetchAndIssue (s : State) (n : Nat) (isJoin : Bool) : State :=
  let c := coreOf s n
  if 4096 ≤ c.pc then faultBundle s n 0x12 0 none
  else if c.bankErrors.contains (4096 * flag c.bank + c.pc) then
    takeHaltAt s n (haltHere c 0xA3 0) (some (siteBundle c.bank c.pc))
  else
    let b := decodeBundle (Table.look c.bundles 0 (4096 * flag c.bank + c.pc))
    carryOut s n (judge s n b.header b.ops b.badSlots isJoin) b.header b.ops true isJoin none

/-- BUNDLE_ISSUE: the next bundle of logical core n; a core whose path is done waits for its join, and one whose
region has overrun halts (R70). -/
def issueBundle (s : State) (n : Nat) : State :=
  let s := freshCycle s n
  let c := coreOf s n
  let padding := match c.region with
    | some g => g.pathDone
    | none => false
  if overrunHalts s n then haltOverrun s n
  else if canIssue s n && !padding then fetchAndIssue s n false
  else s

/-- A plain header that may run ahead. -/
def plainHeader : Header := { cls := 0, marker := 0, shadow := true, ends := 0 }

/-- Encoding faults of a single operation in a window or a region (R68, R72). -/
def singleFaults (c : Core) (o : SlotOp) : List (Nat × Nat) :=
  (match o with
    | .s (.br _ _ _ _ _ _) => if c.region.isSome then [(0x0F, 1)] else []
    | _ => [])
  ++ (if c.inShadow && (hasMatrix [o] || (openedLevel [o]).isSome) then [(0x10, 0)] else [])
  ++ o.encodingFaults

/-- Judge a single operation, which has no header: as `judge`, without what a header shows. -/
def judgeOne (s : State) (n : Nat) (o : SlotOp) : Verdict :=
  let c := coreOf s n
  judgeOps s n (singleFaults c o) (windowBreach c plainHeader) false [o]

/-- A command of an S, V, M, L, T or Y row: logical core n issues that one operation (log entry 16). It fetches
nothing, so neither the loop nest nor the bundle address steps, but for a branch that opens its region. -/
def issueSlot (s : State) (n : Nat) (o : SlotOp) : State :=
  let s := freshCycle s n
  if overrunHalts s n then haltOverrun s n
  else if canIssue s n then carryOut s n (judgeOne s n o) plainHeader [o] false false (some o)
  else s

/-- Issue again what a stall holds, if its cause has cleared (R52). -/
def retryStall (s : State) (n : Nat) : State :=
  let c := coreOf s n
  match c.stall with
  | none => s
  | some w =>
    if !(inStage s && mayIssue { c with stall := none }) then s
    else
      let s := modCoreOf s n fun c => { c with stall := none }
      match w.op with
      | some o => issueSlot s n o
      | none =>
        let isJoin := match c.region with
          | some g => g.pathDone
          | none => false
        fetchAndIssue (freshCycle s n) n isJoin

end Sys2Proof.Machine
end

