-- ==== Sys2Proof/Machine/Bundle.lean ====
section
/-! DEFINITION. The commands of a core's issue: bundles, stalls, waits, branch resolution, joins, post bundles
and store visibility (R50, R52, R58, R65, R70, R73, R76). -/

namespace Sys2Proof.Machine

/-- Slots counted at once in a slot-class event of logical core n: retired at a fair post, wasted at a foul one
and when a shadow window is dropped (R428, R429). -/
def countSlots (s : State) (n e : Nat) (slots : Table Nat) : State :=
  if odGet s (od 0x4800 3) = 1 then s
  else (enabledCounters s).foldl (fun s iw =>
    if coreCounters n ≤ iw.1 && iw.1 < coreCounters n + 8 && cfgEvent iw.2 = e then
      let k := slots.foldl (fun t x => if bitAt (cfgQualifier iw.2) x.1 then t + x.2 else t) 0
      if k = 0 then s else addCount s iw.1 k
    else s) s

/-- What the store hold releases at r, in issue order, and the bundle whose store breaks R121, where one does. DESIGN CHOICE
(log entry 57): from that store on the hold releases nothing, as the halt ends the issue of what follows it, while the lines that
shadow DLDs have kept are written all the same; R136 says what becomes of neither (R73, R136). -/
def releaseHold (s : State) (n : Nat) : List HoldEntry → State × Option Nat
  | [] => (s, none)
  | .store a b bundle :: r =>
    if (coreOf s n).writeBreach a b.length false then (s, some bundle)
    else releaseHold (storeBytes s n a b) n r
  | .dst d _ offset :: r => releaseHold (modCoreOf s n fun c => c.startDepot d offset false) n r

/-- The lines that shadow DLDs have kept are written, and the operations go on as any other (R72, R136). -/
def releaseDepots (s : State) (n : Nat) (ops : List DepotOp) : State :=
  ops.foldl (fun s o => deliverKept (modDepot s n o.desc fun o => { o with shadow := false }) n o.desc o.kept) s

/-- The prediction was right (R73, R74, R136). -/
def commitWindow (s : State) (n : Nat) (g : BranchRegion) : State :=
  let c := coreOf s n
  let kept := c.depots.filter (·.shadow)
  let s := modCoreOf s n fun c => { c with
    region := some { g with resolved := true, hold := [], clears := [], held := none }
    retiredSlots := g.slots.foldl (fun t x => Table.put t 0 x.1 (Table.look t 0 x.1 + x.2)) c.retiredSlots }
  let (s, breach) := releaseHold s n g.hold
  let s := releaseDepots s n kept
  let s := modCoreOf s n fun c => g.clears.foldl (fun c x => c.consume x.1 x.2) c
  match breach with
  | some bundle =>
    let c := coreOf s n
    takeHalt s n { code := 0x42, slot := 5, bank := c.bank, address := bundle, shadow := true, cycle := c.cycle }
  | none =>
    match g.held with
    | some h => takeHalt s n h
    | none => s

/-- Bits of `old` for the descriptors in `cancelled`, of `new` for the others. -/
def restoreBits (old new cancelled : BitVec 56) : BitVec 56 := (old &&& cancelled) ||| (new &&& ~~~cancelled)

/-- The copies of the registers go back, but for the counters of issued bundles, which keep what the window
added (R73). -/
def restoreRegs (g : BranchRegion) (c : Core) : Core :=
  [0, 1, 2, 3].foldl (fun c i =>
    let k := c.counter i
    if k.source.toNat = 1 then c.setC i { k with value := k.value + BitVec.ofNat 32 g.shadowBundles } else c)
    { c with regs := g.saved }

/-- The prediction was wrong: the window is dropped and the other path issues after the discard (R73). -/
def dropWindow (s : State) (n : Nat) (g : BranchRegion) : State :=
  let s := countSlots (coreEvent s n 0x0C 1) n 0x02 g.slots
  modCoreOf s n fun c =>
    let cancelled := c.depots.foldl (fun m o => if o.shadow then m ||| BitVec.ofNat 56 (2 ^ o.desc) else m) 0
    let other := { g with taken := !g.taken, resolved := true, hold := [], clears := [], held := none, slots := []
                          discardUntil := g.resolution + latDiscard (isB0 s) }
    let c := restoreRegs g c
    { c with
      region := some { other with pathDone := other.pathEmpty }
      pc := if other.pathEmpty then other.branch + other.j else other.path.1
      stall := none
      stores := g.savedStores
      depots := c.depots.filter fun o => !o.shadow
      done := restoreBits g.savedDone c.done cancelled
      inFlight := restoreBits g.savedFlight c.inFlight cancelled
      issuedInStage := restoreBits g.savedIssued c.issuedInStage cancelled }

/-- The branch of logical core n resolves, once its cycle r has come (R69, R73). -/
def resolveBranch (s : State) (n : Nat) : State :=
  let c := coreOf s n
  match c.region with
  | none => s
  | some g =>
    if c.state ≠ .running || g.resolved || c.cycle < g.resolution then s
    else if decide (Table.look g.saved.k false g.k = g.sense) = g.taken then commitWindow s n g
    else dropWindow s n g

/-- The join of logical core n issues in the cycle after the region counter reaches N, or an overrun is handled
(R70, R73). -/
def issueJoin (s : State) (n : Nat) : State :=
  let s := freshCycle s n
  let c := coreOf s n
  match c.region with
  | none => s
  | some g =>
    if overrunHalts s n then haltOverrun s n
    else if canIssue s n && g.resolved && g.pathDone && g.n < g.counter then fetchAndIssue s n true
    else s

/-- Class of the bundle at the core's address. -/
def nextClass (c : Core) : Nat := (decodeBundle (Table.look c.bundles 0 (4096 * flag c.bank + c.pc))).header.cls

/-- The post-class bundle issues (R76): as the next bundle, as its region's join, or out of its stall. -/
def issuePost (s : State) (n : Nat) : State :=
  let c := coreOf s n
  if nextClass c ≠ 2 then s
  else if c.stall.isSome then retryStall s n
  else if (match c.region with
      | some g => g.pathDone
      | none => false) then issueJoin s n
  else issueBundle s n

/-- A wait of logical core n releases (R52, R65, R154): what waits at a bit, over a crossing too. -/
def releaseWait (s : State) (n : Nat) : State :=
  match (coreOf s n).stall with
  | some w => if w.cause = 1 || w.cause = 2 || w.cause = 3 then retryStall s n else s
  | none => s

/-- The stores of logical core n whose latency has passed are visible (R50). -/
def showStores (s : State) (n : Nat) : State :=
  modCoreOf s n fun c => { c with stores := c.stores.filter fun st => c.cycle < st.visible }

/-- BUNDLE_ISSUE (R58). -/
def execBundleIssue (core : CoreId) (s : State) : Host.Outcome State Fault Refusal :=
  .next (noteTrackers (issueBundle s core.val))

/-- STALL_RELEASE (R52). -/
def execStallRelease (core : CoreId) (s : State) : Host.Outcome State Fault Refusal :=
  .next (noteTrackers (retryStall s core.val))

/-- WAIT_RELEASE (R65). -/
def execWaitRelease (core : CoreId) (s : State) : Host.Outcome State Fault Refusal :=
  .next (noteTrackers (releaseWait s core.val))

/-- BRANCH_RESOLVE (R73). -/
def execBranchResolve (core : CoreId) (s : State) : Host.Outcome State Fault Refusal :=
  .next (noteTrackers (resolveBranch s core.val))

/-- JOIN_ISSUE (R70). -/
def execJoinIssue (core : CoreId) (s : State) : Host.Outcome State Fault Refusal :=
  .next (noteTrackers (issueJoin s core.val))

/-- POST_BUNDLE (R76). -/
def execPostBundle (core : CoreId) (s : State) : Host.Outcome State Fault Refusal :=
  .next (noteTrackers (issuePost s core.val))

/-- STORE_VISIBLE (R50). -/
def execStoreVisible (core : CoreId) (s : State) : Host.Outcome State Fault Refusal :=
  .next (showStores s core.val)

end Sys2Proof.Machine
end

