-- ==== Sys2Proof/Machine/Upkeep.lean ====
section
/-! DEFINITION. Memory upkeep and the steward's writes to instruction banks (R77, R112, R127, R145 to R149, R161,
R307). A mismatch or an uncorrectable codeword enters the state with the command that reports it (log entry 19). -/

namespace Sys2Proof.Machine

/-- The codeword at an address is uncorrectable, or its line has good codewords again. -/
def setBad (s : State) (a : Nat) (syndrome : BitVec 32) : State :=
  { s with ext := { s.ext with
    bad := Table.put s.ext.bad 0 (a / 64) syndrome
    badHalf := Table.put s.ext.badHalf false (a / 64) (syndrome ≠ 0 && a / 32 % 2 = 1)
    rewritten := Table.put s.ext.rewritten 0 (a / 64) 0 } }

/-- Does a line lie in the working frame of a green page (R307)? -/
def inWorkingFrame (s : State) (line : Nat) : Bool :=
  s.ext.green.any fun g =>
    let front := g.base ≤ line && line < g.base + 4096 * g.pages
    let back := g.back ≤ line && line < g.back + 4096 * g.pages
    let page (first : Nat) : Nat := (g.base + (line - first)) / 4096
    (front && pageEpoch s (page g.base)) || (back && !pageEpoch s (page g.back))

/-- Remove the first re-read of a line that is pending. -/
def dropReread (line : Nat) : List (Nat × Nat) → List (Nat × Nat)
  | [] => []
  | r :: rest => if r.1 = line then rest else r :: dropReread line rest

/-- A correctable codeword was read: counted (Table 6.7). -/
def noteCorrected (s : State) (line : Nat) : State :=
  match locate s line with
  | some p => odAdd s (od (ifaceIndex p.iface) 0x10) 1
  | none => s

/-- The re-read of a line ends (R307): it changes none of the interface's error objects. -/
def endReread (s : State) (line : Nat) (check : ReadCheck) : State :=
  if !(s.ext.rereads.any fun r => r.1 = line) then s
  else
    let s := { s with ext := { s.ext with rereads := dropReread line s.ext.rereads } }
    match check with
    | .uncorrectable _ =>
      if inWorkingFrame s line || s.ext.lost.contains line then s else { s with ext := { s.ext with lost := s.ext.lost ++ [line] } }
    | _ => setBad s line 0

/-- The patrol scrubber has read a line, the codeword at address a of which gives the result (R147). -/
def scrubLine (s : State) (a : Nat) (check : ReadCheck) : State :=
  match check with
  | .clean => s
  | .corrected => setBad (noteCorrected s (a / 64 * 64)) a 0
  | .uncorrectable y => if y = 0 then s else uncorrectable (setBad s a y) (a / 64 * 64) y false

/-- RE_READ_DONE (R307). -/
def execReReadDone (iface : IfaceId) (line : BitVec 48) (check : ReadCheck) (s : State) :
    Host.Outcome State Fault Refusal :=
  let a := line.toNat / 64 * 64
  .next (match locate s a with
    | some p => if p.iface = iface.val then endReread s a check else s
    | none => s)

/-- Does the patrol scrubber of an interface read: the interface has been initialised and is in state 1 (R457), its die runs (R464), and
no plan request and no dynamic-class or host access waits there (R161)? -/
def scrubberReads (s : State) (i : Nat) : Bool :=
  odGet s (od (ifaceIndex i) 2) = 1 && memoryRuns s i && !planWaits s i && !(s.ext.waiting.any fun x => (x.ifaces s).contains i)

/-- PATROL_SCRUB (R147): a line read by the scrubber, by the address of its codeword in error, and the seconds of a pass that
ends with it. -/
def execPatrolScrub (line : BitVec 48) (check : ReadCheck) (passSeconds : Option (BitVec 32)) (s : State) :
    Host.Outcome State Fault Refusal :=
  .next (match locate s (line.toNat / 64 * 64) with
    | none => s
    | some p => if !scrubberReads s p.iface then s else
      let s := scrubLine s line.toNat check
      match passSeconds with
      | some t => odSet s (od (ifaceIndex p.iface) 0x15) t.toNat
      | none => s)

/-- Does the scrubber read this word: a line of a held region, or a green front copy (R127)? -/
def Core.scrubs (c : Core) (word : Nat) : Bool :=
  c.regions.any fun e =>
    let r := readRegion e.2
    if !r.valid then false
    else if r.mode = .held then r.base ≤ word && word < r.base + r.size
    else if r.mode = .green then
      let first := r.base ≤ word && word < r.base + r.size
      let second := r.back ≤ word && word < r.back + r.size
      (first && c.frontAddress r (lineOf word) = word / 64 * 64)
        || (second && c.frontAddress r (lineOf (r.base + (word - r.back))) = word / 64 * 64)
    else false

/-- The detections to come in the array of a word that is found in error now: by the stream reads that operations in it have still to
make (R125, R127). -/
def Core.expectWord (c : Core) (word : Nat) : Core :=
  let only := { c with scratchErrors := [word] }
  let later := c.mops.foldl (fun d m => match m.enter with
    | some e => d.expectErrors m e
    | none => d) { only with arrayErrors := [] }
  { c with arrayErrors := (later.arrayErrors.filter fun x => c.cycle < x.1.cycle).foldl (fun l x => insertError x l) c.arrayErrors }

/-- The scrubber finds a mismatch in a word: counted, charged to the core without making the stage foul, and
repaired at the post; a read of the stage that comes to the word before then finds it too (R126, R127). -/
def scrubFinds (s : State) (n word : Nat) : State :=
  let s := odSet s (od (0x3000 + n) 0x22) word
  let s := odAdd s (od (0x3000 + n) 0x21) 1
  let s := detect s kindCore (physOf s n) (siteWord word)
  modCoreOf s n fun c => { (if c.scratchErrors.contains word then c else c.expectWord word) with
    repairs := c.repairs ++ [word]
    scratchErrors := if c.scratchErrors.contains word then c.scratchErrors else c.scratchErrors ++ [word] }

/-- SCRUB_DETECT (R127): a mismatch at a word, and the cycles of a pass that ends with it. -/
def execScrubDetect (core : CoreId) (address : BitVec 24) (passCycles : Option (BitVec 32)) (s : State) :
    Host.Outcome State Fault Refusal :=
  let n := core.val
  let word := address.toNat / 8 * 8
  let s := if (coreOf s n).scrubs word then scrubFinds s n word else s
  .next (match passCycles with
    | some t => odSet s (od (0x3000 + n) 0x23) t.toNat
    | none => s)

/-- The users of an outer port after its highest-ranked one is granted: mesh, depot, mirror, steward (R112). -/
def grantPort (waiting : BitVec 4) : BitVec 4 := waiting &&& (waiting - 1)

/-- Is the mirror write the highest-ranked of the waiting users? -/
def mirrorFirst (waiting : BitVec 4) : Bool := waiting.toNat % 8 = 4

/-- Remove the first mirror write that waits for a bank. -/
def dropMirror (bank : Nat) : List (Nat × Nat × Bytes) → List (Nat × Nat × Bytes)
  | [] => []
  | m :: r => if m.1 = bank then r else m :: dropMirror bank r

/-- The first mirror write of logical core n that waits for a bank passes its port; the others go on waiting (R110, R112,
R122). -/
def passMirror (s : State) (n bank : Nat) : State :=
  match (coreOf s n).mirrors.find? fun m => m.1 = bank with
  | none => s
  | some m =>
    mirrorWrites (modCoreOf s n fun c =>
      let rest := dropMirror bank c.mirrors
      let c := { c with mirrors := rest }.takePort bank portMirror
      if rest.any fun x => x.1 = bank then c.waitPort bank portMirror else c) n [(m.2.1, m.2.2)]

/-- Users `want` a bank's outer port. -/
def wantPort (s : State) (n bank : Nat) (want : BitVec 4) : State :=
  modCoreOf s n fun c => { c with outer := Table.put c.outer 0 bank (Table.look c.outer 0 bank ||| want) }

/-- The highest-ranked user that waits for a bank's outer port is granted, where the port is free in this cycle (R110, R112).
A mirror write that waits then passes; a depot line and a mesh flit move with their own commands. -/
def grantOuter (s : State) (n bank : Nat) : State :=
  let c := coreOf s n
  let waiting := Table.look c.outer 0 bank
  if !c.portFree bank then s
  else
    let s := modCoreOf s n fun c => { c with outer := Table.put c.outer 0 bank (grantPort waiting) }
    if mirrorFirst waiting then passMirror s n bank else s

/-- OUTER_PORT_GRANT (R112): users `want` a bank's outer port, and the highest-ranked waiting one is granted. -/
def execOuterPortGrant (core : CoreId) (bank : Fin 24) (want : BitVec 4) (s : State) : Host.Outcome State Fault Refusal :=
  .next (grantOuter (wantPort s core.val bank.val want) core.val bank.val)

/-- Status of a write into an instruction bank (Table 3.11), in the model's order of checks (log entry 20). -/
def bankStatus (c : Core) (bank inRange dataError : Bool) : Nat :=
  if c.state = .standby || c.state = .off then 0x05
  else if c.state = .retired then 0x03
  else if !inRange then 0x02
  else if c.hasBank && c.bank = bank then 0x01
  else if dataError then 0x04
  else 0x00

/-- A bank write with its status: applied whole or not at all; a detected error in the data is charged to the
core (R77, Table 12.1). -/
def writeBank (s : State) (n : Nat) (bank inRange dataError : Bool) (f : Core → Core) : State :=
  let st := bankStatus (coreOf s n) bank inRange dataError
  let s := odSet s (od (0x3000 + n) 5) st
  if st = 0 then modCoreOf s n f
  else if st = 4 then detectFoul s kindCore (physOf s n) (siteCode 4)
  else s

/-- Put a bundle into a bank, with good check bits. -/
def Core.setBundle (c : Core) (bank : Bool) (a : Nat) (v : BitVec 256) : Core :=
  let k := 4096 * flag bank + a
  { c with bundles := Table.put c.bundles 0 k v, bankErrors := c.bankErrors.filter (· ≠ k) }

/-- Put a stage-table entry into a bank, with good check bits. -/
def Core.setStageEntry (c : Core) (bank : Bool) (i : Nat) (v : BitVec 32) : Core :=
  let k := 256 * flag bank + i
  { c with stageTable := Table.put c.stageTable 0 k v, bankErrors := c.bankErrors.filter (· ≠ 8192 + k) }

/-- BANK_WRITE (R77). -/
def execBankWrite (core : CoreId) (bank : Bool) (target : BankTarget) (dataError : Bool) (s : State) :
    Host.Outcome State Fault Refusal :=
  .next (match target with
    | .bundle a v => writeBank s core.val bank (a < 4096) dataError fun c => c.setBundle bank a v
    | .stageTable i v => writeBank s core.val bank (i < 256) dataError fun c => c.setStageEntry bank i v)

/-- DESCRIPTOR_WRITE (R149). -/
def execDescriptorWrite (core : CoreId) (bank : Bool) (desc : Nat) (value : BitVec 256) (dataError : Bool) (s : State) :
    Host.Outcome State Fault Refusal :=
  .next (writeBank s core.val bank (desc < 56) dataError fun c =>
    { c with descriptors := Table.put c.descriptors 0 (56 * flag bank + desc) value })

end Sys2Proof.Machine
end

