-- ==== Sys2Proof/Machine/Reload.lean ====
section
/-! DEFINITION. Loading cores from a leg's homes: switch-over, rotation, per-die reset and start (R113, R123, R138,
R212, R308, R314, R464). -/

namespace Sys2Proof.Machine

/-- Is a region one that a reload fills from its home (R138)? -/
def ScratchRegion.fromHome (r : ScratchRegion) : Bool := r.valid && (r.mode = .green || r.mode = .held)

/-- Home address of scratchpad byte a of a region. -/
def ScratchRegion.homeOf (r : ScratchRegion) (a : Nat) : Nat := r.home + (a - r.base)

/-- Addresses of a region's lines. -/
def ScratchRegion.lines (r : ScratchRegion) : List Nat := (countFrom 0 (r.size / 64)).map fun i => r.base + 64 * i

/-- Load one line of a region from its home; an uncorrectable codeword is never data (R146). -/
def Core.loadLine (s : State) (r : ScratchRegion) (c : Core) (a : Nat) : Core :=
  if lineBad s (r.homeOf a) ≠ 0 then c else c.storeRaw a (readExtLine s (r.homeOf a))

/-- Load a region from its home's fired epoch, with selectors at 0 (R138). -/
def Core.loadRegion (s : State) (c : Core) (r : ScratchRegion) : Core :=
  if !r.fromHome then c
  else
    let c := r.lines.foldl (Core.loadLine s r) c
    { c with selector := c.selector.filter fun e => !(r.base ≤ 64 * e.1 && 64 * e.1 < r.base + r.size) }

/-- Lines of the homes that hold an uncorrectable codeword, with their syndromes. -/
def badHomes (s : State) (r : ScratchRegion) : List (Nat × BitVec 32) :=
  if !r.fromHome then []
  else r.lines.filterMap fun a =>
    if lineBad s (r.homeOf a) = 0 then none else some (readFrame s (r.homeOf a) / 64 * 64, lineBad s (r.homeOf a))

/-- Active bank of logical core n in a leg (R78, R212). -/
def Leg.activeBank (l : Leg) (n : Nat) : Bool := Table.look l.banks false n

/-- The core's record with the contents of leg l for logical core n: banks, tables, active bank, regions, power
groups and scratchpad (R113, R138, R314 steps 3, 4 and 6). -/
def Core.loaded (s : State) (l : Leg) (n : Nat) (c : Core) : Core :=
  let regions := l.regionsOf n
  let c := { c with
    state := .idle, bundles := l.bundlesOf n, stageTable := l.stageTablesOf n, descriptors := l.descriptorsOf n
    bankErrors := [], bank := l.activeBank n, hasBank := true, regions := regions, powered := groupsOf regions
    repairs := [] }
  (regions.map fun e => readRegion e.2).foldl (Core.loadRegion s) c

/-- The steward loads logical core n from the running leg's homes. -/
def loadCore (s : State) (n : Nat) : State :=
  let l := runningLeg s
  let bad := (l.regionsOf n).flatMap fun e => badHomes s (readRegion e.2)
  let s := bad.foldl (fun s x => uncorrectable s x.1 x.2 false) s
  modCoreOf s n (Core.loaded s l n)

/-- Logical core n has no active bank until it is loaded (R77, R314 step 2). -/
def awaitLoad (s : State) (n : Nat) : State :=
  let s := modCoreOf s n fun c => { c with state := .idle, hasBank := false, region := none, stall := none }
  if s.stage.reloading.contains n then s
  else noteTrackers { s with stage := { s.stage with reloading := s.stage.reloading ++ [n] } }

/-- The reload ends: every core that was being loaded is loaded and IDLE (R314, R212, R464). A core of a die that is
in reset waits for it. -/
def finishReload (s : State) : State :=
  let dieHeld (n : Nat) : Bool := Table.look s.boot.dieReset 0 (n / 144) ≠ 0
  let todo := s.stage.reloading.filter fun n => !dieHeld n
  let s := todo.foldl loadCore s
  { s with stage := { s.stage with reloading := s.stage.reloading.filter dieHeld } }

/-- RELOAD_DONE (R314). -/
def execReloadDone (s : State) : Host.Outcome State Fault Refusal := .next (finishReload s)

/-- The region and the line, counted in the region's own addresses, that a scratchpad word belongs to. -/
def Core.repairPlace (c : Core) (word : Nat) : Option (ScratchRegion × Nat) :=
  (c.regions.map fun e => readRegion e.2).findSome? fun r =>
    if !r.fromHome then none
    else if r.base ≤ word && word < r.base + r.size then some (r, word / 64 * 64)
    else if r.mode = .green && r.back ≤ word && word < r.back + r.size then some (r, (r.base + (word - r.back)) / 64 * 64)
    else none

/-- One repair of action 2 (R126): a held line, or a green line's front copy, is rewritten from its home. -/
def repairWord (s : State) (n word : Nat) : State :=
  let c := coreOf s n
  match c.repairPlace word with
  | none => s
  | some (r, a) =>
    let front := c.frontAddress r (a / 64)
    if front ≠ word / 64 * 64 then s
    else if lineBad s (r.homeOf a) ≠ 0 then uncorrectable s (readFrame s (r.homeOf a) / 64 * 64) (lineBad s (r.homeOf a)) false
    else modCoreOf s n fun c => c.storeRaw front (readExtLine s (r.homeOf a))

/-- Repair of the bundle or stage-table entry that halted logical core n, from the leg's home (R308). -/
def repairBank (s : State) (n : Nat) : State :=
  let c := coreOf s n
  let h := odGet s (od (0x3000 + n) 0x10)
  let code := bits h 63 56
  let bank := bitAt h 52
  let a := bits h 51 40
  if !c.haltTaken then s
  else if code = 0xA3 then
    odSet (modCoreOf s n fun c => c.setBundle bank a (Table.look ((runningLeg s).bundlesOf n) 0 (4096 * flag bank + a)))
      (od (0x3000 + n) 5) 0
  else if code = 0xA4 then
    let i := s.stage.index
    odSet (modCoreOf s n fun c => c.setStageEntry bank i (Table.look ((runningLeg s).stageTablesOf n) 0 (256 * flag bank + i)))
      (od (0x3000 + n) 5) 0
  else s

/-- The repairs of action 2, after fire or reclaim (R126, R308). -/
def repairAll (s : State) : State :=
  allCores.foldl (fun s n =>
    let words := (coreOf s n).repairs
    let s := words.foldl (fun s w => repairWord s n w) s
    repairBank (modCoreOf s n fun c => { c with repairs := [] }) n) s

/-- Bytes that a rotation to leg l loads (R213): two banks of 128 KiB, and held and green regions, of every core. -/
def Leg.reloadBytes (l : Leg) : Nat :=
  allCores.foldl (fun b n => b + 262144 + (l.regionsOf n).foldl (fun b e =>
    let r := readRegion e.2
    if r.fromHome then b + r.size else b) 0) 0

/-- Rest extension of a rotation to leg l (R213). -/
def Leg.rotationUnits (l : Leg) : Nat := 16 + (l.reloadBytes + 11468799) / 11468800

end Sys2Proof.Machine
end

