-- ==== Sys2Proof/Machine/Fire.lean ====
section
/-! DEFINITION. Action 2 of a post: greenware fires or is reclaimed, then the repairs (R128, R129, R134, R135, R165,
R202, R203, R208, R342, R344, R353, R441). -/

namespace Sys2Proof.Machine

/-- Does a line lie in a green region of the core? -/
def Core.greenLine (c : Core) (line : Nat) : Bool := match c.regionAt (64 * line) 64 with
  | some r => r.mode = .green
  | none => false

/-- Written green lines take their new copies: their selectors flip (R119, R129). -/
def Core.fire (c : Core) : Core :=
  { c with selector := c.written.foldl (fun t e =>
      if e.2 && c.greenLine e.1 then Table.put t false e.1 (!Table.look t false e.1) else t) c.selector }

/-- Epoch bits of the touched green pages flip (R165). -/
def firePages (s : State) : State :=
  let pages := s.ext.touched.flatMap (·.2)
  { s with ext := { s.ext with
      epoch := pages.foldl (fun t p => Table.put t false p (!Table.look t false p)) s.ext.epoch, touched := [] } }

/-- A touched context's entry takes its new fired length in the working frame, and its k, j and aw clear (R202). -/
def fireEntry (s : State) (c : Nat) : State :=
  let old := readEntry (firedEntry s c)
  let b := workingEntry s c
  let new := readEntry b
  let b := putField (putField b 511 480 (newFired old new)) 479 471 0
  let s := if new.aw && new.j < new.k then odAdd s (od 0x2008 5) 1 else s
  stewardWrite s (contextFrame s c (!(getContext s c).epoch)) b

/-- A context in the balancer: number, cost and the new slot. -/
def entryAfter (s : State) (c : Nat) : CtxEntry :=
  readEntry (if (getContext s c).writer.isSome then workingEntry s c else firedEntry s c)

/-- Insert by cost descending, ties by context number ascending. -/
def insertCost (x : Nat × Nat) : List (Nat × Nat) → List (Nat × Nat)
  | [] => [x]
  | y :: r => if y.2 < x.2 || (y.2 = x.2 && x.1 < y.1) then x :: y :: r else y :: insertCost x r

/-- The group with the fewest cost among those with a free slot, ties by lowest number (R208). `used` lists the slots
taken, `cost` the groups' sums. -/
def pickGroup (groups size : Nat) (used : List Nat) (cost : Table Nat) : Option Nat :=
  (countFrom 0 groups).foldl (fun best g =>
    if size ≤ (used.filter fun x => x / size = g).length then best
    else match best with
      | some b => if Table.look cost 0 g < Table.look cost 0 b then some g else best
      | none => some g) none

/-- The slots that the balancer gives to entries in order (R208). -/
def assignSlots (groups size : Nat) : List (Nat × Nat) → List Nat → Table Nat → List (Nat × Nat)
  | [], _, _ => []
  | (c, cost) :: r, used, sums =>
    match pickGroup groups size used sums with
    | none => []
    | some g =>
      let slot := ((countFrom (g * size) size).find? fun x => !used.contains x).getD 127
      (c, slot) :: assignSlots groups size r (slot :: used) (Table.put sums 0 g (Table.look sums 0 g + cost))

/-- One entry takes its slot in the working frame, which marks it touched (R208). -/
def putSlot (s : State) (x : Nat × Nat) : State :=
  let touched := (getContext s x.1).writer.isSome
  let b := if touched then workingEntry s x.1 else firedEntry s x.1
  let s := stewardWrite s (contextFrame s x.1 (!(getContext s x.1).epoch)) (putField b 464 458 x.2)
  setContext s x.1 { getContext s x.1 with writer := some ((getContext s x.1).writer.getD 0) }

/-- R208: after a balance stage, the itinerary's token-log entries are placed anew. -/
def rebalance (s : State) : State :=
  let l := runningLeg s
  let g := max 1 l.slotGroups
  if !Table.look s.ctx.balancing false (runningSlot s) || l.balanceIndex ≠ s.stage.index then s
  else
    let entries := (countFrom 0 4096).filter fun c =>
      let e := entryAfter s c
      e.kind = 2 && e.itin = runningSlot s && e.slot ≠ 127
    let order := entries.foldl (fun l c => insertCost (c, (entryAfter s c).fired) l) []
    (assignSlots g (96 / g) order [] []).foldl putSlot s

/-- Epoch bits of the touched entries flip, and the marks clear (R202). -/
def flipContexts (s : State) : State :=
  (touchedContexts s).foldl (fun s c => setContext s c { epoch := !(getContext s c).epoch, writer := none, entered := true }) s

/-- Contexts written in the stage with aw = 1, with their accepted counts (R203). -/
def draftCounts (s : State) : List (Nat × Nat) :=
  (touchedContexts s).filterMap fun c =>
    let e := readEntry (workingEntry s c)
    if e.aw then some (c, e.j) else none

/-- Is an outbound record written at the fair post (R203)? -/
def OutRecord.written (drafts : List (Nat × Nat)) (r : OutRecord) : Bool :=
  let v := r.header.toNat
  !bitAt v 159 || (match drafts.find? fun d => d.1 = bits v 155 144 with
    | some d => bits v 158 156 < d.2
    | none => true)

/-- The host-release counter of an outbound waystation, as the host has written it (R338). -/
def hostRelease (s : State) (w : Nat) : Nat := extWord s (wsBase s w + 0x410040) 4

/-- The device's counter on a waystation's control page (R338). -/
def setControl (s : State) (w v : Nat) : State :=
  odSet (stewardWrite s (wsBase s w + 0x410000) (leBytes v 4)) (od (wsIndex w) 3) v

/-- One outbound record goes to its slot under the next sequence number (R344). DESIGN CHOICE (log entry 60): the header's reserved
bits go to the slot as the core wrote them. -/
def writeRecord (w : Nat) (s : State) (r : OutRecord) : State :=
  let q := odGet s (od (wsIndex w) 2)
  let ahead := (q + 2 ^ 32 - hostRelease s w) % 2 ^ 32
  let s := if 1024 ≤ ahead && ahead < 2 ^ 31 then odAdd s (od (wsIndex w) 7) 1 else s
  let v := putBits (putBits r.header.toNat 63 32 q) 31 31 1
  odSet (stewardWrite s (wsBase s w + 64 * (q % 1024)) (leBytes v 64)) (od (wsIndex w) 2) (q + 1)

/-- A waystation's interrupt, where it is enabled (R345). -/
def raiseWaystation (s : State) (w : Nat) : State :=
  if odGet s (od (wsIndex w) 5) = 1 then raiseSource s (6 + w) else s

/-- Step 2 of R129 for one outbound waystation: its records by logical core, then by issue (R344). -/
def fireWords (drafts : List (Nat × Nat)) (s : State) (w : Nat) : State :=
  let mine := s.host.records.filter fun r => r.ws = w && r.written drafts
  let order := allCores.flatMap fun n => mine.filter fun r => r.core = n
  if order.isEmpty then s
  else
    let s := order.foldl (writeRecord w) s
    raiseWaystation (setControl s w (odGet s (od (wsIndex w) 2))) w

/-- The released-through value of an inbound waystation whose cursor is c: slots from the first one whose log copy is incomplete wait
(R353). -/
def releasable (s : State) (w c : Nat) : Nat :=
  let ahead (q : Nat) : Nat := (q % 2 ^ 32 + 2 ^ 32 - odGet s (od (wsIndex w) 3)) % 2 ^ 32
  match Table.look s.host.copying [] w with
  | [] => c
  | q :: _ => if ahead q ≤ ahead c then q else c

/-- Step 3 of R129 for one inbound waystation: cursor and released-through advance to the record's cursor; slots whose
log copy is incomplete wait (R342, R353). -/
def releaseSlots (s : State) (w : Nat) : State :=
  let old := odGet s (od (wsIndex w) 2)
  let new := Table.look s.host.recordCursor old w
  let s := odSet s (od (wsIndex w) 2) new
  let free := releasable s w new
  if free = odGet s (od (wsIndex w) 3) then s else raiseWaystation (setControl s w free) w

/-- The newest of the records that fit in n bytes: in mode 2 they overwrite the older ones (R353). -/
def newestRecords (n : Nat) : List Bytes → List Bytes
  | [] => []
  | b :: r => if ((b :: r).foldl (fun t x => t + x.length) 0) ≤ n then b :: r else newestRecords n r

/-- Staged log records become part of the log (R353). -/
def fireLog (s : State) : State :=
  let n := s.host.staged.length
  if n = 0 then s
  else
    let bytes := s.host.staged.foldl (fun t b => t + b.length) 0
    let s := odAdd s (od 0x5850 5) n
    let size := odGet s (od 0x5850 3)
    let head := odGet s (od 0x5850 4) + bytes
    let kept := if odGet s (od 0x5850 1) = 2 then (newestRecords (size - s.host.logUsed) s.host.staged).foldl (fun t b => t + b.length) 0
      else bytes
    odSet { s with host := { s.host with
        staged := [], logTail := s.host.logTail + (bytes - kept), logUsed := s.host.logUsed + kept } } (od 0x5850 4)
      (if size ≠ 0 && odGet s (od 0x5850 1) = 2 then head % size else head)

/-- Waystations of a kind (Table 13.8). -/
def waystations (s : State) (kind : Nat) : List Nat := (countFrom 0 48).filter fun w => wsKind s w = kind

/-- Fire: every kind of greenware of the stage is committed, in the order of R129. DESIGN CHOICE (log entry 60): OD 2008.03 counts the
entries that the stage wrote, not those that the balancer then marks (R204, R208). -/
def fire (s : State) : State :=
  let drafts := draftCounts s
  let s := odSet s (od 0x2008 3) (touchedContexts s).length
  let s := allCores.foldl (fun s n => modCoreOf s n Core.fire) s
  let s := firePages s
  let s := (touchedContexts s).foldl fireEntry s
  let s := flipContexts (rebalance s)
  let s := (waystations s 2).foldl (fireWords drafts) s
  let s := fireLog ((waystations s 1).foldl releaseSlots s)
  { s with host := { s.host with intake := [], records := [], overflow := false, recordCursor := [], lastFired := s.stage.number } }

/-- Reclaim: every kind of greenware is dropped (R128, R202, R343); the intake record stays (R132). -/
def reclaim (s : State) : State :=
  let s := odSet s (od 0x2008 3) (touchedContexts s).length
  let s := (touchedContexts s).foldl (fun s c => setContext s c { getContext s c with writer := none }) s
  { s with ext := { s.ext with touched := [] }, host := { s.host with records := [], overflow := false } }

/-- The slots of the stage are fair or foul work, once the verdict is known (R428, R429). DESIGN CHOICE (log entry 60): those of a
shadow window that a halt or the rest leaves unresolved are wasted, as if dropped. -/
def countWork (s : State) (foul : Bool) : State :=
  allCores.foldl (fun s n =>
    let c := coreOf s n
    let s := countSlots s n (if foul then 2 else 1) c.retiredSlots
    let s := match c.region with
      | some g => if g.resolved then s else countSlots s n 2 g.slots
      | none => s
    modCoreOf s n fun c => { c with retiredSlots := [], region := c.region.map fun g => { g with slots := [] } }) s

/-- The post's fingerprint entry: 24 bytes, the latest 2,048 kept (R441). -/
def logFingerprint (s : State) (foul : Bool) : State :=
  let e := leBytes s.stage.number.toNat 8 ++ leBytes (odGet s (od 0x4C08 2)) 8
    ++ [BitVec.ofNat 8 (flag foul), BitVec.ofNat 8 (runningSlot s)] ++ zeroBytes 6
  { s with observe := { s.observe with log := (s.observe.log ++ [e]).drop (s.observe.log.length + 1 - 2048) } }

/-- Action 2 of Table 1.2. -/
def actionTwo (s : State) (foul : Bool) : State :=
  logFingerprint (countWork (repairAll (if foul then reclaim s else fire s)) foul) foul

end Sys2Proof.Machine
end

