-- ==== Sys2Proof/Machine/Journal.lean ====
section
/-! DEFINITION. The journal of write requests and post-timed applications (R376, R377, Table 14.8). -/

namespace Sys2Proof.Machine

/-- n steps of the reflected CRC-32 of IEEE 802.3. -/
def crc32Bits : Nat → BitVec 32 → BitVec 32
  | 0, c => c
  | n + 1, c => crc32Bits n (if c.getLsbD 0 then (c >>> 1) ^^^ 0xEDB88320#32 else c >>> 1)

/-- The CRC-32 of IEEE 802.3 over bytes (R376). -/
def crc32 (b : Bytes) : BitVec 32 :=
  ~~~(b.foldl (fun c x => crc32Bits 8 (c ^^^ BitVec.setWidth 32 x)) 0xFFFFFFFF#32)

/-- How an entry shows a STR or DOMAIN value: length and CRC-32 (R376). -/
def bytesWord (b : Bytes) : Nat := b.length % 2 ^ 32 + (crc32 b).toNat * 2 ^ 32

/-- Path number of an entry. -/
def pathCode : Path → Nat
  | .ring0 => 0
  | .ring1 => 1
  | .bar2 => 2
  | .fabric => 3

/-- Flags of an entry (Table 14.8): post-timed object, applied at a post, STR or DOMAIN. -/
def journalFlags (postTimed applied long : Bool) : Nat := flag postTimed + 2 * flag applied + 4 * flag long

/-- The 512 bits of an entry (Table 14.8). -/
def journalEntry (s : State) (path source id status flags old new : Nat) : BitVec 512 :=
  let seq := s.dict.entries % 2 ^ 32
  let stage := if runs s then stageNumber s else 2 ^ 64 - 1
  BitVec.ofNat 512 (seq + path * 2 ^ 32 + flags * 2 ^ 40 + status * 2 ^ 48 + id % 256 * 2 ^ 56
    + id / 256 % 65536 * 2 ^ 64 + now s * 2 ^ 128 + stage * 2 ^ 192 + source % 2 ^ 64 * 2 ^ 256
    + old % 2 ^ 64 * 2 ^ 320 + new % 2 ^ 64 * 2 ^ 384)

/-- Add an entry: the journal holds the latest 4,096 (R377). -/
def addJournal (s : State) (path source id status flags old new : Nat) : State :=
  let e := journalEntry s path source id status flags old new
  { s with dict := { s.dict with journal := (e :: s.dict.journal).take 4096, entries := s.dict.entries + 1 } }

/-- Word w of the journal's slot for a sequence number modulo 4,096, 0 where none has been written (R377). -/
def journalWord (s : State) (slot w : Nat) : Nat :=
  let n := s.dict.entries
  let back := (n + 4096 * 2 - 1 - slot) % 4096
  match s.dict.journal[back]? with
  | some e => bits e.toNat (64 * w + 63) (64 * w)
  | none => 0

end Sys2Proof.Machine
end

