-- ==== Sys2Proof/Machine/LinkState.lean ====
section
/-! DEFINITION. A link's states: declaring down, holding, narrowing, retiring and training (R256, R260 to R271). -/

namespace Sys2Proof.Machine

/-- Object index of link l. -/
def linkIndex (l : Nat) : Nat := 0x3800 + l

/-- Set a link's state. -/
def setLinkState (s : State) (l st : Nat) : State := odSet s (od (linkIndex l) 1) st

/-- A start-up step has finished. -/
def stepDone (s : State) (c : CalStep) : Bool := s.boot.stepsDone.contains c

/-- Are converters 9 to 11 absent, so that no LPDDR5X is trained (R404)? -/
def lpAbsent (s : State) : Bool := [9, 10, 11].all fun k => odGet s (od (0x2810 + k) 1) = 0

/-- Has every start-up step but the links and the survey finished (Table 18.6)? -/
def stepsFinished (s : State) : Bool :=
  stepDone s .rails && stepDone s .dieToDie && stepDone s .rowRegulators && stepDone s .coreTest
    && ((countFrom 0 16).all fun k => s.boot.stepsDone.any fun c => match c with
      | .hbmStack j => j.val = k
      | _ => false)
    && (lpAbsent s || (countFrom 0 8).all fun k => s.boot.stepsDone.any fun c => match c with
      | .lpInterface j _ => j.val = k
      | _ => false)

/-- Discipline states (Table 9.5). -/
def dsFree : Nat := 0
def dsAcquiring : Nat := 1
def dsLocked : Nat := 2
def dsHoldover : Nat := 3
def dsUnfit : Nat := 4
def dsMaster : Nat := 5

/-- The device's discipline state (OD 2400.02). -/
def discipline (s : State) : Nat := odGet s (od 0x2400 2)

/-- Does the device trust its time for a start (R235)? -/
def inLock (s : State) : Bool := discipline s = dsLocked || discipline s = dsMaster

/-- A CALIBRATING device enters READY once everything of R460 holds. -/
def checkReady (s : State) : State :=
  if deviceState s = stCalibrating && stepsFinished s && inLock s && odGet s (od 0x3A00 4) ≠ 0
      && ((countFrom 0 48).all fun l => (cabling s l).isNone || linkState s l = lsUp || linkState s l = lsRetired) then
    setDeviceState s stReady
  else s

/-- A notice word for a link of this device (Table 11.10). -/
def noticeWord (s : State) (l : Nat) (restored : Bool) : BitVec 32 :=
  BitVec.ofNat 32 (flag restored * 2 ^ 26 + l % 64 * 2 ^ 20 + coordinate s % 2 ^ 20)

/-- A link of this device went down or came back: its notice goes into the next votes (R298). -/
def putNotice (s : State) (l : Nat) (restored : Bool) : State :=
  let down := noticeWord s l false
  let up := noticeWord s l true
  let others := s.vote.notices.filter fun w => w ≠ down && w ≠ up
  let known := s.fabric.downSet.contains down || s.fabric.announced.contains down || s.fabric.nextSet.contains down
  let add :=
    if !restored then [down]
    else if s.vote.notices.contains down then [down, up]
    else if known then [up] else []
  { s with vote := { s.vote with notices := others ++ add } }

/-- A dropped or flushed dynamic bale of link l (R264). -/
def dropBale (s : State) (l : Nat) (bale : BitVec 1280) (status : Nat) : State :=
  completeDropped (dropCount s l status) bale status

/-- Does the device keep dynamic bales for a link that is down (R264)? -/
def holdsBales (s : State) (l : Nat) : Bool :=
  (runs s || deviceState s = stStopped) && odGet s (od (linkIndex l) 0x22) = 0

/-- Copies of class c that no acknowledgement covers, in the order first sent; a replay's own copy is no other bale. -/
def unacked (k : Link) (c : Nat) : List (BitVec 1280) :=
  (k.copies.filter fun x => k.acked < x.1 && hClass (baleHeader x.2) = c && !hReplay (baleHeader x.2)).map (·.2)

/-- A link's own end without what its numbering held: copies, replays and naks. -/
def Link.closed (k : Link) : Link := { k with copies := [], replays := [], naks := [], nakNow := [] }

/-- Plan bales of a link that no acknowledgement covers go to its detours (R263). -/
def handToDetour (s : State) (l : Nat) : State :=
  modLink s l fun k => { k with detours := k.detours ++ unacked k 1 }

/-- Dynamic bales of a link that goes down: unacknowledged ones first, then its queue, into the hold queue or
dropped (R263, R264). -/
def holdDynamic (s : State) (l : Nat) : State :=
  let k := getLink s l
  let bales := unacked k 3 ++ k.again ++ k.dynamic.map (·.2)
  let s := setLink s l { k with again := [], dynamic := [] }
  if holdsBales s l then
    let kept := bales ++ (getLink s l).held
    let s := modLink s l fun k => { k with held := kept.take 1024 }
    noteHeld ((kept.drop 1024).foldl (fun s b => dropBale s l b 0x12) s) l
  else bales.foldl (fun s b => dropBale s l b 0x10) s

/-- Does a link carry its classes, so that it can be declared down? -/
def linkServing (s : State) (l : Nat) : Bool := linkUp s l

/-- This end declares link l down with a cause of Table 10.7 (R262, R263). -/
def declareDown (s : State) (l cause : Nat) : State :=
  if !linkServing s l then s
  else
    let s := odSet (odAdd s (od (linkIndex l) 0x18) 1) (od (linkIndex l) 0x19) cause
    let s := holdDynamic (handToDetour s l) l
    let s := modLink s l fun k => { k.closed with
      downSlots := 64, downAt := now s, downPosts := 0, lane := none, trainStep := 0, restarting := false }
    putNotice (setLinkState s l lsHeld) l false

/-- A link retires (R268): its dynamic bales are dropped, the device escalates notice 0x21 and is DEGRADED (R311). DESIGN CHOICE (log
entry 57): it is so from the retirement, which need not stand at a post. -/
def retireLink (s : State) (l : Nat) : State :=
  if linkState s l = lsRetired then s
  else
    let s := declareDown s l 6
    let k := getLink s l
    let s := setLink s l { k with held := [], again := [], dynamic := [], trainStep := 0 }
    let s := setLinkState (noteHeld s l) l lsRetired
    let s := (k.held ++ k.again ++ k.dynamic.map (·.2)).foldl (fun s b => dropBale s l b 0x10) s
    checkReady (degrade (escalate s 0x21 kindLink l (odGet s (od (linkIndex l) 0x19))))

/-- A retire request applies at action 6 (R268). Table 10.10 has no move to RETIRED on request from OFF or TRAINING (R271). -/
def requestRetire (s : State) (l : Nat) : State :=
  if linkState s l = lsOff || linkState s l = lsTraining then s else retireLink s l

/-- Failed attempts of the last second (R268): 1 s is 1,250,000,000 ticks. -/
def recentFailures (s : State) (k : Link) : List Nat := k.failures.filter fun t => now s < t + 1250000000

/-- Is a training attempt under way? -/
def training (s : State) (l : Nat) : Bool := linkState s l = lsTraining || linkState s l = lsRetraining

/-- An attempt ends without success: a link from OFF is OFF again and not trained, one from HELD is HELD (Table 10.10). -/
def endAttempt (s : State) (l : Nat) : State :=
  let s := modLink s l fun k => { k with trainStep := 0, echoes := [], cleanSlots := 0, peerReady := false, control := [] }
  if linkState s l = lsTraining then odSet (setLinkState s l lsOff) (od (linkIndex l) 4) 0 else setLinkState s l lsHeld

/-- A training attempt fails (R265, R268): the third failure within 1 s retires the link. -/
def failAttempt (s : State) (l : Nat) : State :=
  if !training s l then s
  else
    let f := recentFailures s (getLink s l) ++ [now s]
    let s := modLink s l fun k => { k with failures := f, failedAt := now s }
    let s := endAttempt (odSet s (od (linkIndex l) 0x1B) f.length) l
    if 3 ≤ f.length then retireLink s l else s

/-- Queue a link-control bale (Table 10.4). -/
def sendControl (s : State) (l op param : Nat) : State :=
  modLink s l fun k => { k with control := k.control ++ [(BitVec.ofNat 8 op, BitVec.ofNat 46 param)] }

/-- Parameter of this device's HELLO (Table 10.4). -/
def helloParam (s : State) (l : Nat) : Nat :=
  odGet s (od 0x5300 1) * 2 ^ 38 + odGet s (od 0x5300 2) * 2 ^ 30 + coordinate s % 2 ^ 20 * 2 ^ 10 + l % 64 * 2 ^ 4

/-- Sequence numbering restarts on a link (R267): received bits and copies clear; what was unacknowledged is sent
again. -/
def restartSequence (k : Link) (base : Nat) : Link :=
  { k.closed with
    again := unacked k 3 ++ k.again, received := [], acked := base, cumulative := base, base := base
    nextSlot := max k.nextSlot base, restarting := false }

/-- A link enters UP (R265, R268): its held bales are sent, and sequence numbering restarts. -/
def enterUp (s : State) (l : Nat) : State :=
  let s := modLink s l fun k =>
    let k := restartSequence { k with again := k.held ++ k.again, held := [] } (now s / 4)
    { k with
      lastAck := now s, trainStep := 0, echoes := [], cleanSlots := 0, peerReady := false, control := []
      downSlots := 0, lane := none }
  checkReady (putNotice (setLinkState (noteHeld s l) l lsUp) l true)

/-- An attempt starts (R265, R268, R269): from OFF, from HELD, or from NARROW on request. `lead` sends RETRAIN. -/
def startAttempt (s : State) (l : Nat) (lead : Bool) : State :=
  let off := linkState s l = lsOff
  let s := if off then s else odAdd s (od (linkIndex l) 0x1A) 1
  let request := od (linkIndex l) 0x20
  let s := if s.dict.pendingPost.contains request then s else odSet s request 0
  let s := setLinkState s l (if off then lsTraining else lsRetraining)
  let s := modLink s l fun k => { k with
    trainStep := 1, leads := lead && !off, echoes := [], cleanSlots := 0, peerReady := false, control := [], attemptAt := now s, stepAt := now s }
  if lead && !off then sendControl s l 2 (coordinate s % 2 ^ 20 * 2 ^ 10) else s

/-- Are the SerDes rails of a link's port die in tolerance (R404, R455)? -/
def serdesUp (s : State) (l : Nat) : Bool :=
  odGet s (od (0x2810 + 12 + 2 * (l / 24)) 7) = 2 && odGet s (od (0x2810 + 13 + 2 * (l / 24)) 7) = 2

/-- Does the port die of a link run (R466)? -/
def portRuns (s : State) (l : Nat) : Bool := dieRuns s (2 + l / 24)

/-- May the steward start an attempt now (R268, R455, R458, Table 10.10)? -/
def mayTrain (s : State) (l : Nat) : Bool :=
  (cabling s l).isSome && serdesUp s l && portRuns s l && odGet s (od 0x3A00 4) ≠ 0 && (linkState s l = lsOff || linkState s l = lsHeld)
    && !bitAt (odGet s (od 0x3A00 8)) l
    && ((getLink s l).failures.isEmpty || (getLink s l).failedAt + 125000000 ≤ now s)

/-- A retrain request applies (R268, R270). -/
def applyRetrain (s : State) (l : Nat) : State :=
  if linkState s l = lsUp || linkState s l = lsReplaying then declareDown s l 6
  else if linkState s l = lsNarrow && odGet s (od 0x3A00 4) ≠ 0 && portRuns s l then
    let s := holdDynamic (modLink s l fun k => { k with downAt := now s, downPosts := 0 }) l
    putNotice (startAttempt (modLink s l Link.closed) l true) l false
  else s

/-- One-lane operation begins (R270): plan traffic goes to the detour, and the device escalates notice 0x22. -/
def enterNarrow (s : State) (l : Nat) (lane : Bool) : State :=
  let s := modLink (handToDetour s l) l fun k => { k with lane := some lane, downAt := now s, lineAt := s.time.cycles, lineUnits := 0 }
  let s := odSet s (od (linkIndex l) 6) (clearBit (odGet s (od (linkIndex l) 6)) (flag lane))
  escalate (setLinkState s l lsNarrow) 0x22 kindLink l 0

/-- The slot number near `cur` that a 12-bit sequence number names: the latest at or before it. -/
def fullSeq (cur seq : Nat) : Nat := cur - (cur + 4096 - seq % 4096) % 4096

/-- Is a replay outstanding: asked for, queued, or sent and not acknowledged (Table 10.6)? -/
def Link.replaying (k : Link) : Bool :=
  !k.naks.isEmpty || !k.nakNow.isEmpty || !k.replays.isEmpty
    || k.copies.any fun c => hReplay (baleHeader c.2) && k.acked < fullSeq c.1 (hSeq (baleHeader c.2))

/-- Leave REPLAYING for UP once no replay is outstanding, or enter it (Table 10.10). -/
def noteReplaying (s : State) (l : Nat) : State :=
  let busy := (getLink s l).replaying
  if linkState s l = lsUp && busy then setLinkState s l lsReplaying
  else if linkState s l = lsReplaying && !busy then setLinkState s l lsUp
  else s

/-- The first nak of a link that no replay has answered in time is named once more (R256). -/
def resendNak (s : State) (l : Nat) : State :=
  let k := getLink s l
  match k.naks.find? fun n => n.times < 2 && n.sent + replayDelay s l ≤ now s with
  | none => s
  | some n =>
    setLink s l { k with
      nakNow := k.nakNow ++ [n.seq]
      naks := k.naks.map fun x => if x = n then { x with times := 2, sent := now s } else x }

/-- A replay that was not sent by its deadline is counted and declares the link down (R260). -/
def overdueReplay (s : State) (l : Nat) : State :=
  if (getLink s l).replays.any fun r => r.slotStart + 2 * linkLatency s l + 344 < now s then
    declareDown (odAdd s (od (linkIndex l) 0x17) 1) l 2
  else s

/-- No acknowledgement has advanced for 4,096 ticks while copies are held (Table 10.7, cause 4). -/
def ackTimeout (s : State) (l : Nat) : State :=
  let k := getLink s l
  if linkServing s l && (k.copies.any fun x => k.acked < x.1) && k.lastAck + 4096 ≤ now s then declareDown s l 4 else s

/-- A window of 2^24 slots ends (R261). -/
def endBadWindow (s : State) (l : Nat) : State :=
  if now s % 67108864 < 4 then odSet s (od (linkIndex l) 0x10) 0 else s

/-- Signal or codeword lock is lost on both lanes (Table 10.7, cause 3; Table 10.9, step 2). -/
def loseSignal (s : State) (l : Nat) : State :=
  let s := odSet s (od (linkIndex l) 6) (odGet s (od (linkIndex l) 6) / 4 * 4)
  if training s l then failAttempt s l else declareDown s l 3

/-- The hold of a down link ends (R264). -/
def endHold (s : State) (l : Nat) : State :=
  let k := getLink s l
  if (linkState s l = lsHeld || linkState s l = lsRetraining) && (2 ≤ k.downPosts || k.downAt + 1048576 ≤ now s) then
    let s := noteHeld (setLink s l { k with held := [] }) l
    k.held.foldl (fun s b => dropBale s l b 0x11) s
  else s

/-- A lane fails while the other holds (R270), or the remaining lane of a NARROW link (cause 7). -/
def failLane (s : State) (l : Nat) (lane : Bool) : State :=
  if linkState s l = lsNarrow then
    if (getLink s l).lane = some lane then s else declareDown s l 7
  else if linkUp s l then sendControl (enterNarrow s l lane) l 4 (flag lane * 2 ^ 45)
  else s

/-- A NARROW arrives (R270). -/
def takeNarrow (s : State) (l : Nat) (lane : Bool) : State :=
  if linkState s l = lsUp || linkState s l = lsReplaying then enterNarrow s l lane else s

/-- A RETRAIN arrives (R269): the other end follows; on a collision the lower coordinate leads. No link trains without a shape
(R458). -/
def takeRetrain (s : State) (l peer : Nat) : State :=
  if !portRuns s l then s
  else
    let s := declareDown s l 8
    if linkState s l = lsHeld then (if odGet s (od 0x3A00 4) ≠ 0 then startAttempt s l false else s)
    else if linkState s l = lsRetraining && peer < coordinate s then
      modLink s l fun k => { k with leads := false, control := k.control.filter fun c => c.1 ≠ 2 }
    else s

/-- PMD training and codeword lock are complete on both lanes (Table 10.9, steps 1 and 2). -/
def pmdDone (s : State) (l lanes : Nat) : State :=
  if !training s l || !portRuns s l || 2 < (getLink s l).trainStep then s
  else
    let s := odSet s (od (linkIndex l) 6) lanes
    if lanes % 4 ≠ 3 then failAttempt s l
    else sendControl (modLink s l fun k => { k with
      trainStep := 3, stepAt := now s, lineAt := s.time.cycles, lineUnits := 0 }) l 1 (helloParam s l)

/-- A HELLO of a slot arrives (R266, R267, R274). In training one more HELLO goes back, before the first ECHO: the far end is
ready for it now. -/
def takeHello (s : State) (l param slot : Nat) : State :=
  let high := bits param 45 38
  let low := bits param 37 30
  let peer := bits param 29 10
  let peerLink := bits param 9 4
  if !portRuns s l then s
  else if training s l then
    let s := odSet (odSet s (od (linkIndex l) 2) peer) (od (linkIndex l) 3) peerLink
    let v := min high (odGet s (od 0x5300 1))
    let right := match cabling s l, peerCoordinate s l with
      | some q, some c => q.2 = peerLink && c = peer
      | _, _ => false
    if !right then
      endAttempt (odSet s (od 0x3A00 8) (setBit (odGet s (od 0x3A00 8)) l)) l
    else if v < low || v < odGet s (od 0x5300 2) then failAttempt s l
    else if (getLink s l).trainStep ≠ 3 then s
    else
      let s := odSet s (od (linkIndex l) 4) v
      sendControl (sendControl (modLink s l fun k => { k with trainStep := 4, stepAt := now s, echoes := [] }) l 1 (helloParam s l)) l 5 0
  else if linkUp s l then modLink s l fun k => { restartSequence k slot with lastAck := now s }
  else s

/-- An ECHO arrives (Table 10.9, step 4): its answer names the arrival until it is sent. -/
def takeEcho (s : State) (l arrival : Nat) : State :=
  if training s l then sendControl s l 6 (arrival % 2 ^ 46) else s

/-- An ECHO REPLY arrives (R265): after 8 exchanges the latency is known. -/
def takeEchoReply (s : State) (l delay arrival : Nat) : State :=
  let k := getLink s l
  if !training s l || k.trainStep ≠ 4 then s
  else
    let e := k.echoes ++ [(arrival - k.echoSent - delay) / 2]
    let lam := e.getLastD 0
    if e.length < 8 then sendControl (setLink s l { k with echoes := e }) l 5 0
    else if 16384 < lam || e.foldl min lam + 2 < e.foldl max lam then failAttempt s l
    else
      let s := odSet s (od 0x2403 (l + 1)) lam
      let s := setLink s l { k with echoes := e, trainStep := 5, stepAt := now s, cleanSlots := 0 }
      odSet s (od (linkIndex l) 5) (replayDelay s l)

/-- Step 5 is over (Table 10.9): READY is to be sent. -/
def finishClean (s : State) (l : Nat) : State :=
  sendControl (modLink s l fun k => { k with trainStep := 6, stepAt := now s }) l 7 0

/-- READY has been sent (Table 10.9, step 6): the link is UP once both ends have sent it. -/
def readySent (s : State) (l : Nat) : State :=
  if (getLink s l).peerReady then enterUp s l else modLink s l fun k => { k with trainStep := 7 }

/-- A READY arrives (Table 10.9, step 6). -/
def takeReady (s : State) (l : Nat) : State :=
  if !training s l || !portRuns s l then s
  else if (getLink s l).trainStep = 7 then enterUp s l
  else modLink s l fun k => { k with peerReady := true }

/-- Is a time limit of a training attempt over (R265, Table 10.9): 200 ms for the attempt, 10 ms for HELLO, 1 ms for READY? -/
def attemptExpired (s : State) (l : Nat) : Bool :=
  let k := getLink s l
  k.attemptAt + 250000000 ≤ now s || (k.trainStep = 3 && k.stepAt + 12500000 ≤ now s)
    || (6 ≤ k.trainStep && k.stepAt + 1250000 ≤ now s)

/-- NAK_RESEND (R256). -/
def execNakResend (link : LinkId) (s : State) : Host.Outcome State Fault Refusal := .next (resendNak s link.val)

/-- REPLAY_OVERDUE (R260). -/
def execReplayOverdue (link : LinkId) (s : State) : Host.Outcome State Fault Refusal := .next (overdueReplay s link.val)

/-- ACK_TIMEOUT (R261). -/
def execAckTimeout (link : LinkId) (s : State) : Host.Outcome State Fault Refusal := .next (ackTimeout s link.val)

/-- BAD_BALE_WINDOW_END (R261). -/
def execBadBaleWindowEnd (link : LinkId) (s : State) : Host.Outcome State Fault Refusal := .next (endBadWindow s link.val)

/-- LOSS_OF_SIGNAL (R261). -/
def execLossOfSignal (link : LinkId) (s : State) : Host.Outcome State Fault Refusal := .next (loseSignal s link.val)

/-- HOLD_END (R264). -/
def execHoldEnd (link : LinkId) (s : State) : Host.Outcome State Fault Refusal := .next (endHold s link.val)

/-- LANE_FAILED (R270). -/
def execLaneFailed (link : LinkId) (lane : Bool) (s : State) : Host.Outcome State Fault Refusal :=
  .next (failLane s link.val lane)

/-- HELLO (R266): one that comes without its bale is of the slot that starts. -/
def execHello (link : LinkId) (param : BitVec 46) (s : State) : Host.Outcome State Fault Refusal :=
  .next (takeHello s link.val param.toNat (now s / 4))

/-- RETRAIN (R269). -/
def execRetrain (link : LinkId) (coordinate : BitVec 20) (s : State) : Host.Outcome State Fault Refusal :=
  .next (takeRetrain s link.val coordinate.toNat)

/-- DOWN (R262): the declaration's own cause is 5. -/
def execDown (link : LinkId) (_cause : BitVec 6) (s : State) : Host.Outcome State Fault Refusal :=
  .next (declareDown s link.val 5)

/-- NARROW (R270). -/
def execNarrow (link : LinkId) (lane : Bool) (s : State) : Host.Outcome State Fault Refusal :=
  .next (takeNarrow s link.val lane)

/-- ECHO (R265). -/
def execEcho (link : LinkId) (arrival : BitVec 68) (s : State) : Host.Outcome State Fault Refusal :=
  .next (takeEcho s link.val arrival.toNat)

/-- ECHO_REPLY (R265). -/
def execEchoReply (link : LinkId) (delay : BitVec 46) (arrival : BitVec 68) (s : State) :
    Host.Outcome State Fault Refusal :=
  .next (takeEchoReply s link.val delay.toNat arrival.toNat)

/-- READY (R265). -/
def execReady (link : LinkId) (s : State) : Host.Outcome State Fault Refusal := .next (takeReady s link.val)

/-- TRAINING_ATTEMPT (R268). -/
def execTrainingAttempt (link : LinkId) (s : State) : Host.Outcome State Fault Refusal :=
  .next (if mayTrain s link.val then startAttempt s link.val true else s)

/-- PMD_TRAINING_DONE (R265). -/
def execPmdTrainingDone (link : LinkId) (lanes : BitVec 5) (s : State) : Host.Outcome State Fault Refusal :=
  .next (pmdDone s link.val lanes.toNat)

/-- TRAINING_TIMEOUT (R265). -/
def execTrainingTimeout (link : LinkId) (s : State) : Host.Outcome State Fault Refusal :=
  .next (if attemptExpired s link.val then failAttempt s link.val else s)

end Sys2Proof.Machine
end

