-- ==== Sys2Proof/Machine/Survey.lean ====
section
/-! DEFINITION. Replica-path monitors and the margin survey (R417 to R421). -/

namespace Sys2Proof.Machine

/-- Physical core that monitor m of row `row` is attributed to (R417). -/
def monitorCore (row m : Nat) : Nat := 13 * row + 2 * m + 1

/-- Is monitor m of region r in service (R417)? -/
def monitorServes (s : State) (r m : Nat) : Bool :=
  !isRowRegion r || (getCore s (monitorCore (regionRow r) m)).state ≠ .retired

/-- Largest delay that a monitor has kept since the last survey. -/
def monitorDelay (s : State) (r m : Nat) : Nat := (Table.look s.power.monitors 0 (6 * r + m)).toNat

/-- Largest in-service delay of a region and its monitor (R418). -/
def worstDelay (s : State) (r : Nat) : Nat × Nat :=
  (countFrom 0 6).foldl (fun w m =>
    if monitorServes s r m && w.1 < monitorDelay s r m then (monitorDelay s r m, m) else w) (0, 0)

/-- Period in taps of a row step, or of the one clock of another region (R418). -/
def periodTaps (r step : Nat) : Nat :=
  if isRowRegion r then ([320, 360, 400, 480, 640] : List Nat).getD step 640 else if r = 29 then 400 else 320

/-- Margin of region r at a step and an offset, from the delay d at its present voltage (R418). -/
def marginAt (s : State) (r d step : Nat) (offset : Int) : Int :=
  let v : Int := (nominal r step : Int) + offset
  let change : Int := 4 * ((odGet s (od (regionPower r) 1) : Int) - v)
  (periodTaps r step : Int) - ((d : Int) + -((-change) / 5))

/-- The smallest offset from o in 5 mV steps with enough margin, +100 at most (R419). -/
def raiseOffset (s : State) (r d step : Nat) (target : Int) : Nat → Int → Int
  | 0, o => o
  | n + 1, o => if 100 ≤ o then 100 else if target ≤ marginAt s r d step o then o else raiseOffset s r d step target n (o + 5)

/-- The survey of region r (R419, R420); none where no sample has been kept. -/
def surveyRegion (s : State) (r : Nat) : Option SurveyPlan :=
  let (d, worst) := worstDelay s r
  if d = 0 || regionFailed s r then none
  else
    let target : Int := odGet s (od 0x2C00 5)
    let step := if isRowRegion r then deviceStep s else 0
    let o := ageOffset s r
    let m := marginAt s r d step o
    let o' := if m < target then raiseOffset s r d step target 30 o
      else if target + 12 ≤ m && -40 < o then o - 5 else o
    let floor := if isRowRegion r then ((countFrom 0 5).find? fun k => decide (target ≤ marginAt s r d k o')).getD 5 else 0
    let exhausted := if isRowRegion r then decide (odGet s (od 0x2C00 4) < floor)
      else decide (o' = 100) && decide (marginAt s r d step 100 < target)
    some ⟨o', floor, exhausted, d, worst⟩

/-- Regions that the pending survey is for. -/
def surveyRegions (s : State) : List Nat := if s.power.surveyOf.isEmpty then allRegions else s.power.surveyOf

/-- Compute the pending survey; the device decides permanence from it when its vote forms (R306, R419, R420). -/
def computeSurvey (s : State) : State :=
  if !s.power.survey then s
  else
    let plans := (surveyRegions s).filterMap fun r => (surveyRegion s r).map fun p => (r, p)
    let s := { s with power := { s.power with planned := plans } }
    plans.foldl (fun s x =>
      let r := x.1
      if !x.2.exhausted then s
      else if isRowRegion r then
        let p := monitorCore (regionRow r) x.2.monitor
        let key := unitKey kindCore p
        let h := getStrikes s key
        setStrikes s key { h with permanent := true, first := if h.history = 0 && h.sites.isEmpty then now s else h.first }
      else raiseLoss s 0x14 kindDie (regionDie r) 0) s

/-- One region takes its plan (R419, R420, Table 16.9). DESIGN CHOICE (log entry 60): an exhausted row takes its new offset, and its
floor stays till the survey that follows without the retired monitor. -/
def applyPlan (s : State) (r : Nat) (p : SurveyPlan) : State :=
  let a := regionAge r
  let s := odSet (odSet s (od a 3) p.delay) (od a 5) p.monitor
  let s := odSetInt (odSetInt s (od a 1) p.offset) (od a 2) (100 - p.offset)
  if p.exhausted then
    let s := odSet s (od a 7) (if isRowRegion r then 2 else 3)
    { s with power := { s.power with surveyOf := if isRowRegion r then s.power.surveyOf ++ [r] else s.power.surveyOf } }
  else
    let s := odSet (odSet s (od a 6) p.floor) (od a 7) (if 0 < p.floor then 1 else 0)
    odSet s (od (regionClock r) 2) p.floor

/-- The survey part of action 5 (R419 to R421): offsets and floors take effect; an exhausted row is surveyed again at
the next post. -/
def applySurvey (s : State) : State :=
  if !s.power.survey then s
  else
    let plans := s.power.planned
    let done := surveyRegions s
    let s := { s with power := { s.power with surveyOf := [] } }
    let s := plans.foldl (fun s x => applyPlan s x.1 x.2) s
    let again := !s.power.surveyOf.isEmpty
    let s := odAdd (odSet (odSet s (od 0x2C00 2) (stageNumber s)) (od 0x2C00 3) (now s)) (od 0x2C00 1) 1
    setTargets (noteFloor { s with power := { s.power with
      survey := again, planned := [], stagesPassed := 0
      monitors := s.power.monitors.filter fun x => !done.contains (x.1 / 6) } })

/-- Does this post trigger a survey (R419)? DESIGN CHOICE (log entry 60): a stage has passed with its fair post. -/
def surveyDue (s : State) : Bool :=
  2 ^ 20 ≤ s.power.stagesPassed || 4500000000000 ≤ now s - odGet s (od 0x2C00 3) || odGet s (od 0x2C00 6) = 1

/-- A post triggers a survey, which takes the request object (R419). -/
def triggerSurvey (s : State) (foul : Bool) : State :=
  let s := if foul then s else { s with power := { s.power with stagesPassed := s.power.stagesPassed + 1 } }
  if s.power.survey || !surveyDue s then s
  else odSet { s with power := { s.power with survey := true, surveyOf := [] } } (od 0x2C00 6) 0

end Sys2Proof.Machine
end

