-- ==== Sys2Proof/Machine/Post.lean ====
section
/-! DEFINITION. Actions 3 to 9 of a post and the rules of its verdict (R21 to R24, R78, R106, R207, R209, R211 to R214,
R241, R288, R291, R300, R309 to R314, R362). -/

namespace Sys2Proof.Machine

/-- Bit of a causes field. -/
def hasCause (v : Vote) (bit : Nat) : Bool := v.causes.getLsbD bit

/-- Physical core `p` is permanent and waits for its switch-over (R318). -/
def waitingCore (s : State) (p : Nat) : Bool := (getStrikes s (unitKey kindCore p)).permanent && (getCore s p).state ≠ .retired

/-- A physical core retires, held in reset with its groups off and its banks unpowered (R30), and its row shifts onto the reserve
(Table 12.2, steps 1, 2, 3 to 6 in part): the moved cores wait for their load. -/
def switchOverCore (s : State) (p : Nat) : State :=
  let row := p / 13
  let j := p % 13
  let s := setCore s p { Core.reset with state := .retired, hasBank := false }
  let s := odSet (odSet s (od (0x3400 + row) 1) j) (od (0x3400 + row) 2) 0
  let s := ((countFrom j (12 - j)).map fun c => 12 * row + c).foldl awaitLoad s
  let s := odSet (odAdd s (od 0x4401 3) 1) (od 0x4401 4) (row * 256 + j)
  raiseAtPost (degrade s) 0x20 kindCore p 0

/-- Action 3 (R314, R464). -/
def actionThree (s : State) : State :=
  let s := match s.stage.switchOver with
    | some p => switchOverCore { s with stage := { s.stage with switchOver := none } } p
    | none => s
  let dies := s.boot.reloadDies
  let s := (allCores.filter fun n => dies.contains (n / 144)).foldl awaitLoad s
  { s with boot := { s.boot with reloadDies := [] } }

/-- A notice changes a down set (R291, Table 11.10). -/
def applyNotice (set : List (BitVec 32)) (w : BitVec 32) : List (BitVec 32) :=
  let rest := set.filter fun x => bits x.toNat 25 0 ≠ bits w.toNat 25 0
  if w.getLsbD 26 then rest else rest ++ [w]

/-- The routing-epoch switch takes effect (R291, R292). -/
def takeEpoch (s : State) : State :=
  if !s.fabric.epochDue then s
  else
    let s := odSet (odAdd s (od 0x3900 1) 1) (od 0x3900 5) (now s + 131072)
    { s with fabric := { s.fabric with
        old := s.fabric.current, current := s.fabric.next, downSet := s.fabric.nextSet, switchAt := now s, epochDue := false } }

/-- Action 4 (R291): a switch announced by an earlier post is made, once 131,072 ticks have passed since the last; this
post's notices are for a later one. A held link counts the post (R264). -/
def actionFour (s : State) (notices : List (BitVec 32)) : State :=
  let f := s.fabric
  let due := !f.announced.isEmpty && (odGet s (od 0x3900 1) = 0 || f.switchAt + 131072 ≤ now s)
  let s :=
    if !due then s
    else
      let set := f.announced.foldl applyNotice f.downSet
      { s with fabric := { f with next := buildRoutes s set, nextSet := set, epochDue := true, announced := [] } }
  let s := { s with fabric := { s.fabric with announced := s.fabric.announced ++ notices } }
  let s := { s with vote := { s.vote with notices := s.vote.notices.filter fun w => !notices.contains w } }
  (countFrom 0 48).foldl (fun s l =>
    if linkState s l = lsHeld || linkState s l = lsRetraining then
      modLink s l fun k => { k with downPosts := k.downPosts + 1 }
    else s) s

/-- Action 5 (R220, R241, R244, R415, R419). -/
def actionFive (s : State) (foul : Bool) : State :=
  let (s, changed) := applyStep (applySurvey (applyThrottle s (!foul)))
  { s with vote := { s.vote with stepChanged := changed } }

/-- A post-timed object's value goes to zero where no write has reached it since the latch (R362). -/
def clearPosted (s : State) (id : Nat) : State := if s.dict.pendingPost.contains id then s else odSet s id 0

/-- A new target step takes effect: a faster step's ramp begins (R241). -/
def takeTarget (s : State) (v : Nat) : State :=
  let s := { s with power := { s.power with target := v } }
  match (runningLeg s).variantFrom (requiredStep s (odGet s (od 0x2410 4)) (odGet s (od 0x2410 5))) with
  | some k => prepareStep s k
  | none => s

/-- Is a resident slot occupied (OD 2000.02)? -/
def resident (s : State) (slot : Nat) : Bool := slot < 8 && bitAt (odGet s (od 0x2000 2)) slot

/-- An arm or its withdrawal is applied (R214, Table 8.7). DESIGN CHOICE (log entry 60): an arm that is refused leaves an earlier one
armed. -/
def applyArm (s : State) (v : Nat) : State :=
  if v = 0 then odSet { s with ctx := { s.ctx with arm := none } } (od 0x2020 6) 0
  else
    let slot := odGet s (od 0x2020 1)
    let p := odGet s (od 0x2020 2)
    if !resident s slot || 7 < p then odSet (clearPosted s (od 0x2020 5)) (od 0x2020 6) 5
    else
      let a : WeightArm := { slot := slot, pointer := p, base := odGet s (od 0x2020 3), from' := odGet s (od 0x2020 4) }
      odSet { s with ctx := { s.ctx with arm := some a } } (od 0x2020 6) 1

/-- Does a context take a landing (R207)? -/
def landable (s : State) (touched : List Nat) (itin length c : Nat) : Bool :=
  let e := readEntry (firedEntry s c)
  c < 4096 && e.kind = 1 && e.fired = 0 && e.itin = itin && !touched.contains c && length ≤ 16 * e.len

/-- A landing is applied whole or refused (R207). -/
def applyLanding (s : State) (touched : List Nat) (v : Nat) : State :=
  if v = 0 then s
  else
    let first := odGet s (od 0x2028 1)
    let count := odGet s (od 0x2028 2)
    let length := odGet s (od 0x2028 3)
    let all := countFrom first count
    let good := 0 < count && all.all (landable s touched (odGet s (od 0x2028 4)) length)
    let s := clearPosted s (od 0x2028 5)
    let replaced := s.dict.pendingPost.contains (od 0x2028 5) && odGet s (od 0x2028 5) = 1
    let s := if replaced then s else odSet s (od 0x2028 6) (if good then 1 else 2)
    if !good then s
    else all.foldl (fun s c => stewardWrite s (contextFrame s c (getContext s c).epoch) (putField (firedEntry s c) 511 480 length)) s

/-- Index ranges of the post-timed objects (Table 14.4). -/
def isBalancing (id : Nat) : Bool := 0x2010 ≤ id / 256 && id / 256 < 0x2018 && id % 256 = 7
def isBankSwitch (id : Nat) : Bool := 0x3000 ≤ id / 256 && id / 256 < 0x3120 && id % 256 = 4
def isRetrain (id : Nat) : Bool := 0x3800 ≤ id / 256 && id / 256 < 0x3830 && id % 256 = 0x20
def isRetire (id : Nat) : Bool := 0x3800 ≤ id / 256 && id / 256 < 0x3830 && id % 256 = 0x21
def isPostTimed (id : Nat) : Bool :=
  id = od 0x2020 5 || id = od 0x2028 5 || id = od 0x2410 1 || isBalancing id || isBankSwitch id || isRetrain id || isRetire id

/-- The value in effect before an application, which its journal entry shows as old (R376). -/
def effectiveValue (s : State) (id : Nat) : Nat :=
  if id = od 0x2410 1 then s.power.target
  else if isBalancing id then flag (Table.look s.ctx.balancing false (id / 256 - 0x2010))
  else if id = od 0x2020 5 then flag s.ctx.arm.isSome
  else 0

/-- The effect of a post-timed object's value (Table 14.4). `touched` are the contexts that the stage wrote. -/
def postTimedEffect (s : State) (touched : List Nat) (id v : Nat) : State :=
  if id = od 0x2410 1 then takeTarget s v
  else if id = od 0x2020 5 then applyArm s v
  else if id = od 0x2028 5 then applyLanding s touched v
  else if isBalancing id then
    { s with ctx := { s.ctx with balancing := Table.put s.ctx.balancing false (id / 256 - 0x2010) (v = 1) } }
  else if isRetrain id then (if v = 1 then applyRetrain s (id / 256 - 0x3800) else s)
  else if isRetire id then (if v = 1 then clearPosted (requestRetire s (id / 256 - 0x3800)) id else s)
  else s

/-- An application is refused: balancing on a leg that is not balance-safe (R209). -/
def applicationRefused (s : State) (id v : Nat) : Bool := isBalancing id && v = 1 && odGet s (od (id / 256) 6) = 0

/-- A latched value is refused at its application: its object returns to zero, and a slot's balancing is off (R209). -/
def refuseLatched (s : State) (id : Nat) : State :=
  let s := clearPosted s id
  { s with ctx := { s.ctx with balancing := Table.put s.ctx.balancing false (id / 256 - 0x2010) false } }

/-- One latched value is applied and journaled (R209, R362). -/
def applyLatched (touched : List Nat) (s : State) (x : Nat × Nat) : State :=
  let refused := applicationRefused s x.1 x.2
  let old := effectiveValue s x.1
  let s := if refused then refuseLatched s x.1 else postTimedEffect s touched x.1 x.2
  addJournal s 4 0 x.1 (if refused then 0x0A else 0) (journalFlags true true false) old x.2

/-- Insert a latched value in ascending index.subindex order. -/
def insertLatched (x : Nat × Nat) : List (Nat × Nat) → List (Nat × Nat)
  | [] => [x]
  | y :: r => if x.1 < y.1 then x :: y :: r else y :: insertLatched x r

/-- The latched values in ascending order. -/
def latchedValues (s : State) : List (Nat × Nat) := s.dict.latch.foldl (fun l x => insertLatched x l) []

/-- Action 6 (R362). -/
def actionSix (s : State) (touched : List Nat) : State :=
  (latchedValues s).foldl (applyLatched touched) s

/-- Logical core n switches its instruction bank (R78). -/
def switchBank (s : State) (n : Nat) : State :=
  let slot := runningSlot s
  let l := getLeg s slot
  let new := !l.activeBank n
  let s := setLeg s slot { l with banks := Table.put l.banks false n new }
  clearPosted (modCoreOf s n fun c => if c.hasBank then { c with bank := new } else c) (od (0x3000 + n) 4)

/-- The cargo entry at an address is verified (R214). -/
def cargoVerifiedAt (s : State) (a : Nat) : Bool :=
  s.cargo.entries.any fun e => e.2.state = cargoVerified && e.2.base = a

/-- A due weight switch is applied or dropped (R214). `late` says that the arm took its place at this very post. -/
def weightSwitch (s : State) (late : Bool) : State :=
  match s.ctx.arm with
  | none => s
  | some a =>
    let due := a.slot = runningSlot s && s.stage.index = (runningLeg s).swapIndex && a.from' ≤ s.stage.number.toNat
    if !due then s
    else
      let s := clearPosted { s with ctx := { s.ctx with arm := none } } (od 0x2020 5)
      if late then odSet s (od 0x2020 6) 3
      else if !cargoVerifiedAt s a.base then odSet s (od 0x2020 6) 4
      else
        let s := stewardWrite s (contextBase s + 0x80000 + 64 * a.slot + 8 * a.pointer) (leBytes a.base 8)
        odSet (odSet s (od (0x2010 + a.slot) (0x10 + a.pointer)) a.base) (od 0x2020 6) 2

/-- Action 7 (R78, R214), with the values that action 6 applied. -/
def actionSeven (s : State) (applied : List (Nat × Nat)) : State :=
  let s := (applied.filter fun x => isBankSwitch x.1 && x.2 = 1).foldl (fun s x => switchBank s (x.1 / 256 - 0x3000)) s
  weightSwitch s (odGet s (od 0x2020 6) = 1 && applied.any fun x => x.1 = od 0x2020 5 && x.2 = 1)

/-- Fields of rotation-plan entry i (Table 8.8). -/
def planEntry (s : State) (i : Nat) : Nat := odGet s (od 0x2000 (0x10 + i))
def planSlot (w : Nat) : Nat := w % 8
def planValid (w : Nat) : Bool := bitAt w 3
def planQuantum (w : Nat) : Nat := bits w 31 8

/-- The valid entries of the rotation plan. -/
def validEntries (s : State) : List Nat := (countFrom 0 8).filter fun i => planValid (planEntry s i)

/-- The entry that runs: the one at the rotation position, else the first that names the running slot (R211). -/
def runningEntry (s : State) : Option Nat :=
  let names (i : Nat) : Bool := planValid (planEntry s i) && planSlot (planEntry s i) = runningSlot s
  let pos := odGet s (od 0x2000 3)
  if pos < 8 && names pos then some pos else (validEntries s).find? names

/-- Is a slot's leg one that the device may run: that of its own logical address (R14)? -/
def ownLeg (s : State) (slot : Nat) : Bool := (getLeg s slot).ownAddress = logicalAddress s

/-- The entry to rotate to when the running itinerary has completed n fair posts (R211); an entry whose leg is another address's is
passed over (R14). -/
def rotationAfter (s : State) (n : Nat) : Option Nat :=
  match runningEntry s with
  | none => none
  | some cur =>
    if (validEntries s).length < 2 || n < planQuantum (planEntry s cur) then none
    else
      let own := (validEntries s).filter fun e => ownLeg s (planSlot (planEntry s e))
      match own.find? (cur < ·) with
      | some e => some e
      | none => own.head?

/-- Vote budget of a leg with a used axes (R299). -/
def voteBudget (axes cap : Nat) : Nat := 64 + 2 * axes * (cap + 88) + (2 * cap + 352) + 512

/-- Objects that show the running leg (Tables 4.5, 11.12). DESIGN CHOICE (log entry 57): the seed shows from PREPARE and from a
rotation on, when the leg becomes the running one; Table 4.5 says when the itinerary loads. -/
def showLeg (s : State) : State :=
  let l := runningLeg s
  let s := odSet s (od 0x2040 4) l.seed
  odSet (odSet s (od 0x3900 3) l.latencyCap) (od 0x3900 4) (voteBudget (usedAxes s).length l.latencyCap)

/-- Logical cores whose bank-switch request is stored. -/
def switchRequests (s : State) : List Nat := allCores.filter fun n => odGet s (od (0x3000 + n) 4) = 1

/-- Put the incoming itinerary's pending bank-switch requests in the place of the outgoing one's (R212). -/
def exchangeRequests (s : State) (old new : Nat) : State :=
  let out := switchRequests s
  let s := setLeg s old { getLeg s old with switches := out }
  let s := out.foldl (fun s n => odSet s (od (0x3000 + n) 4) 0) s
  let l := getLeg s new
  let s := l.switches.foldl (fun s n => odSet s (od (0x3000 + n) 4) 1) s
  let rest := s.dict.pendingPost.filter fun id => !isBankSwitch id
  { s with dict := { s.dict with pendingPost := rest ++ l.switches.map fun n => od (0x3000 + n) 4 } }

/-- Rotation to plan entry e (R211, R212): the steward loads every core from the incoming leg's homes. -/
def rotateTo (s : State) (e : Nat) : State :=
  let old := runningSlot s
  let new := planSlot (planEntry s e)
  let s := exchangeRequests s old new
  let s := odSet (odSet s (od 0x2000 1) new) (od 0x2000 3) e
  let s := showLeg (setLeg s new { getLeg s new with quantum := 0 })
  allCores.foldl awaitLoad s

/-- Action 8 (R211). -/
def actionEight (s : State) : State :=
  let slot := runningSlot s
  let l := getLeg s slot
  let s := setLeg s slot { l with quantum := l.quantum + 1 }
  match rotationAfter s (l.quantum + 1) with
  | some e => rotateTo s e
  | none => s

/-- Stop rules on the verdicts (R297): the causes of the rules that stop the domain at this post, for combined vote v of
stage n, the lift λ and the number of successive foul posts. -/
def stopRules (s : State) (n : BitVec 64) (v : Vote) (lift foulPosts : Nat) : List Nat :=
  let same (f : Vote → Bool) : Bool := match s.vote.last with
    | some (m, w) => m = n && w.foul && f w
    | none => false
  let late (w : Vote) : Bool := hasCause w causeLate && !hasCause w causeUnready
  let halted (w : Vote) : Bool := hasCause w causeHalt && w.flags.getLsbD 1 && !hasCause w causeHardware
  let booking (w : Vote) : Bool := hasCause w causeBooking
  if !v.foul then []
  else
    (if late v && !v.flags.getLsbD 0 && same late then [0x01] else [])
    ++ (if halted v && same halted then [0x02] else [])
    ++ (if hasCause v causeNonFinite then (if hasCause v causeHardware then [] else [0x03])
        else if hasCause v causeSpill && lift = 3 then [0x04] else [])
    ++ (if booking v && same booking then [0x08] else [])
    ++ (if 6 ≤ foulPosts then [0x0B] else [])

/-- Lift of the re-run (Table 4.4, R107). -/
def nextLift (v : Vote) (lift : Nat) : Nat :=
  if !v.foul then 0
  else if hasCause v causeNonFinite then lift
  else if hasCause v causeSpill && lift < 3 then lift + 1 else lift

/-- Did this device's own vote raise the rule of a stop cause (R323)? -/
def ownRaised (own : Vote) (cause : Nat) : Bool :=
  match cause with
  | 0x01 => hasCause own causeLate
  | 0x02 => own.flags.getLsbD 1
  | 0x03 => hasCause own causeNonFinite
  | 0x04 => hasCause own causeSpill
  | 0x08 => hasCause own causeBooking
  | _ => own.foul

/-- Halt code of the lowest-numbered logical core that halted in the stage. -/
def firstHaltCode (s : State) : Nat :=
  match allCores.find? fun n => (coreOf s n).haltTaken with
  | some n => bits (odGet s (od (0x3000 + n) 0x10)) 63 56
  | none => 0

/-- Escalations that this post has raised are queued and delivered (R320 to R323). -/
def escalateRaised (s : State) : State :=
  let raised := s.vote.raised
  raised.foldl (fun s r => escalate s r.1 r.2.1 r.2.2.1 r.2.2.2) { s with vote := { s.vote with raised := [] } }

/-- What the verdict leaves in the objects of Table 11.12. -/
def noteVerdict (s : State) (v own : Vote) : State :=
  let s := odSet s (od 0x2030 1) (if v.foul && v.stop then 2 else flag v.foul)
  let s := odSet (odSet s (od 0x2030 2) v.causes.toNat) (od 0x2030 3) v.ext
  let s := odSet (odSet s (od 0x2030 4) (now s - s.vote.t0)) (od 0x2030 5) own.causes.toNat
  if v.foul && hasCause v causeSpill then odAdd s (od 0x2040 5) 1 else s

/-- A mode-2 tally whose offset lies beyond its stage is missed at that stage's post (R437). -/
def missTally (s : State) : State :=
  match s.observe.armed with
  | none => s
  | some y =>
    if y.mode = 2 && y.slot = runningSlot s && y.stage = s.stage.number.toNat && s.stage.length ≤ y.offset then
      { odSet s (od 0x4C00 7) 4 with observe := { s.observe with armed := none } }
    else s

/-- Actions 6 to 8, at a fair post only; at a foul one the latch is discarded (R22, R362). -/
def fairActions (s : State) (foul : Bool) (touched : List Nat) : State :=
  if foul then
    let ids := (s.dict.latch.map (·.1)).filter fun id => !s.dict.pendingPost.contains id
    { s with dict := { s.dict with pendingPost := ids ++ s.dict.pendingPost, latch := [] } }
  else
    let applied := latchedValues s
    let s := actionSix s touched
    actionEight (actionSeven { s with dict := { s.dict with latch := [] } } applied)

/-- No stage runs any more: the cores are IDLE (Table 2.4), rows held by the thermal hold run again, and a pending survey
takes effect at once (R419). -/
def leaveStages (s : State) : State :=
  let s := applySurvey (computeSurvey s)
  let s := allCores.foldl (fun s n => modCoreOf s n fun c =>
    if c.state = .running || c.state = .atPost || c.state = .halted then { c with state := .idle, stall := none } else c) s
  let s := allRows.foldl (fun s row => setRow s row { getRow s row with tripped := false, carry := false }) s
  let s := switchDividers (startRows { s with power := { s.power with hold := false, restoreBase := now s } })
  takeEpoch { s with stage := { s.stage with phase := .none } }

/-- Action 9 (R22, R23, R239): the next stage is due, or the domain has stopped. -/
def actionNine (s : State) (v : Vote) (stopped : Bool) : State :=
  let n := odGet s (od (0x2010 + runningSlot s) 4)
  let start := s.stage.start + s.stage.length + 1024 * v.ext
  let s := { s with
    vote := { s.vote with
      last := some (s.stage.number, v), prevNumber := s.stage.number, prevFoul := v.foul, combined := none, own := none
      received := [], lossVoted := false }
    host := { s.host with postRaised := none } }
  if stopped then
    let s := leaveStages s
    { s with stage := { s.stage with number := BitVec.ofNat 64 n } }
  else { s with stage := { s.stage with
      phase := .verdict, number := BitVec.ofNat 64 n, nextStart := start, firstRun := !v.foul, verdictAt := now s } }

/-- No depot operation and no mirror write crosses a post (R130): those that have not completed end, and no completion bit sets. -/
def endTraffic (s : State) : State :=
  (s.cores.filter fun e => !(e.2.depots.isEmpty && e.2.mirrors.isEmpty)).foldl (fun s e =>
    modCore s e.1 fun c => { c with depots := [], mirrors := [], inFlight := 0 }) s

/-- The verdict at a device that runs a leg: actions 2 to 9 of Table 1.2. -/
def post (s : State) (v own : Vote) : State :=
  let n := s.stage.number
  let touched := touchedContexts s
  let lift := odGet s (od 0x2040 1)
  let foulPosts := if !v.foul then 0 else match s.vote.last with
    | some (m, w) => if m = n && w.foul then odGet s (od 0x4401 2) + 1 else 1
    | none => 1
  let rules := stopRules s n v lift foulPosts
  let stop := v.stop || !rules.isEmpty
  let s := { s with host := { s.host with postRaised := some [] } }
  let s := noteVerdict (odSet s (od 0x4401 2) foulPosts) v own
  let s := (rules.filter (ownRaised own)).foldl (fun s c =>
    raiseAtPost s c kindDevice (coordinate s) (if c = 0x02 then firstHaltCode s else 0)) s
  let s := missTally (odSet (actionTwo (endTraffic s) v.foul) (od 0x2040 1) (nextLift v lift))
  let s := odSet s (od (0x2010 + runningSlot s) 4) (if v.foul then n.toNat else n.toNat + 1)
  let lost := s.vote.lossVoted
  let s := if lost then setDeviceState (odSet s (od 0x4401 1) 2) stFaulted else if stop then setDeviceState s stStopped else s
  let s := actionFive (actionFour (actionThree s) v.notices) v.foul
  let s := triggerSurvey (fairActions s v.foul touched) v.foul
  settleLoss (actionNine (escalateRaised s) v (lost || stop))

/-- The verdict at a device that follows the domain's posts without a leg (R313): it takes the routing epoch with the
domain. -/
def followPost (s : State) (v own : Vote) : State :=
  let s := { s with host := { s.host with postRaised := some [] } }
  let s := escalateRaised (takeEpoch (actionFour (noteVerdict s v own) v.notices))
  { s with
    stage := { s.stage with phase := .none }
    vote := { s.vote with
      prevNumber := s.vote.number, prevFoul := v.foul, combined := none, own := none, received := [], lossVoted := false
      follows := false }
    host := { s.host with postRaised := none } }

/-- The last phase is complete: the combination is the domain's verdict (R298). -/
def verdict (s : State) : State :=
  match s.vote.combined, s.vote.own with
  | some v, some own => if runs s then post s v own else followPost s v own
  | _, _ => s

end Sys2Proof.Machine
end

