-- ==== Sys2Proof/Machine/Mesh.lean ====
section
/-! DEFINITION. Mesh and die-to-die consignments, and link-level reduction (R281, R282, R285, R286, R288; log entries
23 and 24). -/

namespace Sys2Proof.Machine

/-- Key of an in port's waiting units. -/
def portKey (row stop port : Nat) : Nat := (row * 13 + stop) * 8 + port

/-- Key of a die-to-die send entry's waiting units. -/
def dieKey (side entry : Nat) : Nat := 0x100000 + side * 16384 + entry

/-- Key of a mesh entry's progress. -/
def meshKey (row stop entry : Nat) : Nat := (row * 13 + stop) * 4096 + entry

/-- Key of a mesh entry's reduction bytes and of its end, beside the link entries. -/
def meshEnd (row stop entry : Nat) : Nat := 0x1000000 + meshKey row stop entry

/-- Units waiting at a key. -/
def unitsAt (s : State) (k : Nat) : List (Nat × FabricUnit) := Table.look s.fabric.units [] k

/-- Replace the units waiting at a key. -/
def setUnits (s : State) (k : Nat) (l : List (Nat × FabricUnit)) : State :=
  { s with fabric := { s.fabric with units := Table.put s.fabric.units [] k l } }

/-- A unit arrives at a key. -/
def pushUnit (s : State) (k at' : Nat) (u : FabricUnit) : State := setUnits s k (unitsAt s k ++ [(at', u)])

/-- The 144 bytes in which 128 bytes of data pass a mesh or die-to-die hop: four codewords of 36 (R144). -/
def codeUnit (u : BitVec 1024) : Bytes :=
  (countFrom 0 4).flatMap fun i =>
    let d := slice (leBytes u.toNat 128) (32 * i) 32
    d ++ rsCheck d

/-- The data of n codewords of 36 bytes, each decoded by R145; none where one is uncorrectable. -/
def decodeCodewords (b : Bytes) : Nat → Option Bytes
  | 0 => some []
  | n + 1 =>
    match rsDecode (b.take 36), decodeCodewords (b.drop 36) n with
    | .clean, some r => some (b.take 32 ++ r)
    | .corrected w, some r => some (w.take 32 ++ r)
    | _, _ => none

/-- What a receiver of a flit or unit makes of it (R145, R305): `error` is what the hop has turned of its codewords, byte 0 in
the low bits. None: it marks the unit uncorrectable. -/
def receiveUnit (u : BitVec 1024) (error : BitVec 1152) : Option (BitVec 1024) :=
  if error = 0 then some u
  else (decodeCodewords (List.zipWith (· ^^^ ·) (codeUnit u) (leBytes error.toNat 144)) 4).map fun b => BitVec.ofNat 1024 (leNat b)

/-- What goes on of a unit that a receiver has checked: marked where none of it does. -/
def checkedUnit : Option (BitVec 1024) → FabricUnit
  | some w => .data w
  | none => .marked

/-- A unit arrives at its receiver of kind and number `kind`, `unit`: one that was marked before stays marked, and the first to
mark it is charged with it (R302, R305). -/
def checkUnit (s : State) (kind unit : Nat) (u : FabricUnit) (error : BitVec 1152) : State × FabricUnit :=
  match u with
  | .data v =>
    let w := receiveUnit v error
    (if w.isNone then detectFoul s kind unit (siteCode 0xA6) else s, checkedUnit w)
  | .marked => (s, .marked)
  | .absent => (s, .absent)

/-- An entry has a unit or bale that was not written (R282). -/
def breakEnd (s : State) (k : Nat) : State :=
  { s with fabric := { s.fabric with broken := Table.put s.fabric.broken false k true } }

/-- Is an entry's end broken? -/
def endBroken (s : State) (k : Nat) : Bool := Table.look s.fabric.broken false k

/-- Core cycle at a mesh stop: its own core's, or the row's where the stop's core serves none. -/
def stopCycle (s : State) (row stop : Nat) : Nat :=
  match logicalOf s (13 * row + stop) with
  | some n => (coreOf s n).cycle
  | none => (countFrom (12 * row) 12).foldl (fun m n => max m (coreOf s n).cycle) 0

/-- A double booking at run time (R288). -/
def doubleBooked (s : State) : State := setCause (odAdd s (od 0x3904 1) 1) causeBooking

/-- The ledger of one element takes a summand (R281): a spill writes the marker and raises the spill causes (R105). The
flag says whether the sum was written. -/
def reduceElement (s : State) (n : Nat) (w : Int) (input output a v : Nat) : State × Bool :=
  let c := coreOf s n
  if (c.regionAt a 24).isNone then (slot7Halt s n 0x42, false)
  else
    match c.readError a 24 with
    | some word =>
      (takeHaltAt (noteScratchError s n word) n
        { code := 0xA7, slot := 7, bank := c.bank, address := c.pc, shadow := false, cycle := c.cycle }
        (some (siteWord word)), false)
    | none =>
      let r := sumLedger w (if input = 1 then 0 else 1) v (leNat (c.readScratch a 24))
      let s := if r.spill then noteSpill s r.nonFinite else s
      let b := finishElement w output r.value
      fillLine s n a (b ++ zeroBytes (24 - b.length))

/-- Element size of a reduction's input: 24-byte ledgers or FP32. -/
def reduceSize (input : Nat) : Nat := if input = 1 then 4 else 24

/-- Elements of a reduction, the first of number `first`, from bytes. -/
def reduceElements (s : State) (n : Nat) (e : LinkEntry) (address first : Nat) (b : Bytes) : Nat → State × Bool
  | 0 => (s, true)
  | m + 1 =>
    let size := reduceSize e.input
    let w := ledgerBase e.window (odGet s (od 0x2040 1))
    let (s, ok) := reduceElements s n e address first b m
    let (s, ok') := reduceElement s n w e.input e.output (address + 24 * (first + m)) (field b (size * m) size)
    (s, ok && ok')

/-- The link receive entry that gives a reduce-mode delivery its parameters: a reduce end of that number for this core, with
its link. -/
def reduceParams (s : State) (n entry : Nat) : Option (Nat × LinkEntry) :=
  ((countFrom 0 48).map fun l => (l, linkEntry s l entry)).find? fun x =>
    x.2.valid && x.2.receive && x.2.tail = 3 && x.2.core = n

/-- Deliver ends of the link tables that a write of 128 bytes at byte a of logical core n is part of: key and entry. -/
def linkEndsAt (s : State) (n a : Nat) : List (Nat × LinkEntry) :=
  (countFrom 0 48).flatMap fun l =>
    ((linkNumbers s l).map fun i => (l * 16384 + i, linkEntry s l i)).filter fun x =>
      x.2.valid && x.2.receive && x.2.tail = 1 && x.2.core = n && rangesOverlap a 128 x.2.address (144 * x.2.count)

/-- m bytes of a deliver or reduce end have come by the mesh, written or not: its waybill bit sets once all are written
(R282). -/
def noteEnd (s : State) (n m : Nat) (ok : Bool) (x : Nat × LinkEntry) : State :=
  if !ok then breakEnd s x.1
  else
    let done := Table.look s.fabric.endBytes 0 x.1 + m
    let s := { s with fabric := { s.fabric with endBytes := Table.put s.fabric.endBytes 0 x.1 done } }
    if done < 144 * x.2.count || 144 * x.2.count ≤ done - m || endBroken s x.1 then s else setWaybill s n x.2.waybill

/-- Bytes that a write of 128 bytes at a has in common with a deliver end's range. -/
def commonBytes (a : Nat) (e : LinkEntry) : Nat := min (a + 128) (e.address + 144 * e.count) - max a e.address

/-- A flit is written at its core's scratchpad, in two lines. -/
def writeFlit (s : State) (n a : Nat) (u : BitVec 1024) : State × Bool :=
  let b := leBytes u.toNat 128
  let (s, ok) := fillLine s n a (slice b 0 64)
  let (s, ok') := fillLine s n (a + 64) (slice b 64 64)
  (s, ok && ok')

/-- The elements that become whole with flit i of a delivery in reduce mode, of which `held` bytes have come before it: the first
one, how many, and the bytes before the first; none beyond the last of the end's bales (R281). -/
def LinkEntry.wholeElements (p : LinkEntry) (held i : Nat) : Nat × Nat × Nat :=
  let size := reduceSize p.input
  let start := 128 * i - held
  let first := (start + size - 1) / size
  let skip := first * size - start
  (first, min ((held + 128 - skip) / size) (144 / size * p.count - first), skip)

/-- A flit of a delivery in reduce mode: the elements that are whole now are added, and the rest waits (R281, R285). -/
def reduceFlit (s : State) (row stop entry n : Nat) (p : LinkEntry) (a i : Nat) (u : BitVec 1024) : State × Bool :=
  let k := meshEnd row stop entry
  let old := Table.look s.fabric.streams [] k
  let (first, m, skip) := p.wholeElements old.length i
  let bytes := (old ++ leBytes u.toNat 128).drop skip
  let s := { s with fabric := { s.fabric with streams := Table.put s.fabric.streams [] k (bytes.drop (m * reduceSize p.input)) } }
  reduceElements s n p a first bytes m

/-- The bytes of a reduce delivery that wait for the rest of their element go, as a unit between does not come (R282). -/
def dropStream (s : State) (k : Nat) : State :=
  { s with fabric := { s.fabric with streams := Table.put s.fabric.streams [] k [] } }

/-- A flit reaches its core (out 4): written, or reduced (R285). The flag says whether it was written. A marked one is not:
its consumer halts with 0xA6 (R305); nor is one that has not come. -/
def deliverFlit (s : State) (row stop entry : Nat) (e : MeshEntry) (i : Nat) (u : FabricUnit) : State × Bool :=
  match logicalOf s (13 * row + stop) with
  | none => (s, false)
  | some n =>
    let a := e.address + 128 * i
    let halt (s : State) : State × Bool := (slot7Halt s n 0xA6, false)
    if !e.reduce then
      let (s, ok) := match u with
        | .data u => writeFlit s n a u
        | .marked => halt s
        | .absent => (s, false)
      ((linkEndsAt s n a).foldl (fun s x => noteEnd s n (commonBytes a x.2) ok x) s, ok)
    else
      match reduceParams s n e.edge with
      | none => (s, false)
      | some (l, p) =>
        let (s, ok) := match u with
          | .data u => reduceFlit s row stop entry n p e.address i u
          | .marked => halt (dropStream s (meshEnd row stop entry))
          | .absent => (dropStream s (meshEnd row stop entry), false)
        (noteEnd s n 128 ok (l * 16384 + e.edge, p), ok)

/-- Ticks of n core cycles of a row at its step (Table 9.1). -/
def cycleTicks (s : State) (row n : Nat) : Nat := n * ([8, 9, 10, 12, 16] : List Nat).getD (rowStep s row) 16 / 8

/-- Bytes of unit i of an end of `units` units at engine g's inbox that carry requests: of one that a link's bales feed, none of the
filling beyond their whole lines (R281). -/
def inboxPart (s : State) (g units i : Nat) : Nat :=
  let fed := (countFrom 0 48).findSome? fun l => ((linkNumbers s l).map (linkEntry s l)).find? fun x =>
    x.valid && x.receive && x.tail = 2 && x.engine = g && (144 * x.count + 127) / 128 = units
  match fed with
  | some x => min 128 (144 * x.count / 64 * 64 - 128 * i)
  | none => 128

/-- A flit leaves by an out port other than the stop's own scratchpad, at core cycle t (Table 11.5). It reaches the die's edge
six core cycles of its row later, at a step below S0 too, where R224 gives no latency (log entry 24). -/
def forwardFlit (s : State) (row stop : Nat) (e : MeshEntry) (i t : Nat) (u : FabricUnit) : State :=
  if e.output = portNorth && row % 12 ≠ 0 then pushUnit s (portKey (row - 1) stop portSouth) (t + 6) u
  else if e.output = portSouth && row % 12 ≠ 11 then pushUnit s (portKey (row + 1) stop portNorth) (t + 6) u
  else if e.output = portEast && stop ≠ 12 then pushUnit s (portKey row (stop + 1) portWest) (t + 2) u
  else if e.output = portWest && stop ≠ 0 then pushUnit s (portKey row (stop - 1) portEast) (t + 2) u
  else if e.output = portEdge then
    match edgeSide row stop with
    | some side => pushUnit s (dieKey side e.edge) (now s + cycleTicks s row 6) u
    | none => match u with
      | .data u =>
        if row % 12 = 0 || row % 12 = 11 then fillInbox s e.engine (leBytes u.toNat (inboxPart s e.engine e.count i)) else s
      | _ => s
  else s

/-- What an entry takes at its in port. -/
inductive Taken where
  /-- Nothing has come yet. -/
  | waits
  /-- The entry's read failed, and it stops (R125). -/
  | stopped
  /-- A flit. -/
  | flit (u : FabricUnit)
  deriving DecidableEq, Repr

/-- The next flit of an entry from its own scratchpad (R116, R125); its banks' outer ports have been taken. -/
def readFlit (s : State) (row stop : Nat) (e : MeshEntry) (i : Nat) : State × Taken :=
  match logicalOf s (13 * row + stop) with
  | none => (s, .stopped)
  | some n =>
    let c := coreOf s n
    let a := e.address + 128 * i
    if (c.regionAt a 64).isNone || (c.regionAt (a + 64) 64).isNone then (slot7Halt s n 0x42, .stopped)
    else
      match (c.readError a 64).or (c.readError (a + 64) 64) with
      | some w =>
        (takeHaltAt (noteScratchError s n w) n
          { code := 0xA7, slot := 7, bank := c.bank, address := c.pc, shadow := false, cycle := c.cycle }
          (some (siteWord w)), .stopped)
      | none => (s, .flit (.data (BitVec.ofNat 1024 (leNat (c.readScratch a 64 ++ c.readScratch (a + 64) 64)))))

/-- The next flit of an entry at its in port: own scratchpad, or what has arrived by core cycle t, which the stop checks
(R305). -/
def takeFlit (s : State) (row stop : Nat) (e : MeshEntry) (i t : Nat) (error : BitVec 1152) : State × Taken :=
  if e.input = portOwn then readFlit s row stop e i
  else
    let k := portKey row stop e.input
    match unitsAt s k with
    | (at', u) :: r =>
      if at' ≤ t then
        let (s, u) := checkUnit (setUnits s k r) kindMesh (13 * row + stop) u error
        (s, .flit u)
      else (s, .waits)
    | [] => (s, .waits)

/-- Banks whose units hold n bytes from an address (R109). -/
def banksOf (a n : Nat) : List Nat := (countFrom (a / 128) ((a + n - 1) / 128 + 1 - a / 128)).map fun u => scratchBank (128 * u)

/-- The scratchpad bytes that an entry's flit of core cycle t reads or writes, from their first address: those of the flit, or of the
ledgers that a reduce end adds to; none for a flit that only passes its stop (R110, R281). -/
def MeshEntry.touches (params : Option LinkEntry) (e : MeshEntry) (t : Nat) : Nat × Nat :=
  let i := t - e.first
  if e.input = portOwn || (e.output = portOwn && !e.reduce) then (e.address + 128 * i, 128)
  else if e.output ≠ portOwn then (0, 0)
  else match params with
    | some p =>
      let (first, m, _) := p.wholeElements (128 * i % reduceSize p.input) i
      (e.address + 24 * first, 24 * m)
    | none => (0, 0)

/-- The link entry that gives a mesh entry at a stop its reduce parameters, if it is a reduce end (R281). -/
def reduceEntry (s : State) (row stop : Nat) (e : MeshEntry) : Option LinkEntry :=
  if e.reduce then ((logicalOf s (13 * row + stop)).bind fun n => reduceParams s n e.edge).map Prod.snd else none

/-- The scratchpad banks whose outer ports an entry's flit of core cycle t passes (R109, R110). DEDUCED (log entry 58): those of the
addresses that the entry books. -/
def MeshEntry.banksAt (params : Option LinkEntry) (e : MeshEntry) (t : Nat) : List Nat :=
  let (a, n) := e.touches params t
  if n = 0 then [] else banksOf a n

/-- Does an entry book core cycle t? -/
def MeshEntry.books (e : MeshEntry) (t : Nat) : Bool := e.first ≤ t && t < e.first + e.count

/-- Do two entries of one stop and variant claim one out port, or one bank's outer port, in core cycle t (R112, R287)? -/
def MeshEntry.clashes (params : MeshEntry → Option LinkEntry) (x y : MeshEntry) (t : Nat) : Bool :=
  x.step = y.step && x.books t && y.books t
    && (x.output = y.output || (x.banksAt (params x) t).any fun b => (y.banksAt (params y) t).contains b)

/-- Does an entry of a lower number claim what an entry needs in core cycle t (R112, R288)? -/
def meshClash (s : State) (row stop entry : Nat) (e : MeshEntry) (t : Nat) : Bool :=
  (countFrom 0 entry).any fun j =>
    let x := meshEntry s row stop j
    x.valid && x.clashes (reduceEntry s row stop) e t

/-- Flits moved of a mesh entry in the stage. -/
def meshMoved (s : State) (row stop entry : Nat) : Nat := Table.look s.fabric.meshDone 0 (meshKey row stop entry)

/-- Set the number of flits of a mesh entry that have moved. -/
def setMoved (s : State) (row stop entry n : Nat) : State :=
  { s with fabric := { s.fabric with meshDone := Table.put s.fabric.meshDone 0 (meshKey row stop entry) n } }

/-- Core cycles that an end of an entry adds (Table 11.5): 4 from scratchpad to the mesh, 4 from the mesh to scratchpad. -/
def MeshEntry.sourceCycles (e : MeshEntry) : Nat := if e.input = portOwn then 4 else 0
def MeshEntry.endCycles (e : MeshEntry) : Nat := if e.output = portOwn then 4 else 0

/-- The outer ports that a flit of core cycle t passes at its stop: the copies that are read or written (R110). -/
def flitPorts (s : State) (row stop : Nat) (e : MeshEntry) (t : Nat) : List Nat :=
  match logicalOf s (13 * row + stop), e.touches (reduceEntry s row stop e) t with
  | some n, (a, m) =>
    let c := coreOf s n
    if m = 0 then []
    else ((countFrom (a / 128) ((a + m - 1) / 128 + 1 - a / 128)).flatMap fun u =>
      [128 * u, 128 * u + 64].filter fun x => a < x + 64 && x < a + m).map fun x =>
        scratchBank (if e.input = portOwn then c.readCopy x else c.writtenCopy x)
  | none, _ => []

/-- A flit that passes its stop's core in cycle t finds a port that has served another unit in that cycle (R110, R112). -/
def portTaken (s : State) (row stop : Nat) (banks : List Nat) (t : Nat) : Bool :=
  match logicalOf s (13 * row + stop) with
  | some n => (coreOf s n).cycle = t && banks.any fun b => !(coreOf s n).portFree b
  | none => false

/-- A flit passes outer ports in cycle t, or waits for them (R110, R112). -/
def usePorts (s : State) (row stop : Nat) (banks : List Nat) (t : Nat) (passes : Bool) : State :=
  match logicalOf s (13 * row + stop) with
  | some n => if banks.isEmpty then s else modCoreOf s n fun c => banks.foldl (fun c b =>
      if passes then (c.leavePort b portMesh).usePort b t else c.waitPort b portMesh) c
  | none => s

/-- One flit of an entry moves (R285, R288), through the outer ports that it needs in its booked cycle (R110): the flag says whether
one moved. -/
def moveFlit (s : State) (row stop entry : Nat) (e : MeshEntry) (error : BitVec 1152) : State × Bool :=
  let i := meshMoved s row stop entry
  let t := e.first + i
  let k := meshEnd row stop entry
  let at' := stopCycle s row stop
  let ports := flitPorts s row stop e t
  if e.count ≤ i || at' < t + e.endCycles then (s, false)
  else if portTaken s row stop ports (t + e.endCycles) then (usePorts s row stop ports (t + e.endCycles) false, false)
  else
    match takeFlit (usePorts s row stop ports (t + e.endCycles) true) row stop e i at' error with
    | (s, .waits) => (s, false)
    | (s, .stopped) => (setMoved (breakEnd s k) row stop entry e.count, false)
    | (s, .flit u) =>
      let s := setMoved s row stop entry (i + 1)
      if meshClash s row stop entry e t then (breakEnd (doubleBooked s) k, true)
      else if e.output ≠ portOwn then (forwardFlit s row stop e i (max t at' + e.sourceCycles) u, true)
      else
        let (s, ok) := deliverFlit s row stop entry e i u
        let s := if ok then s else breakEnd s k
        let s := match logicalOf s (13 * row + stop) with
          | some n => if i + 1 = e.count && !endBroken s k then setWaybill s n e.waybill else s
          | none => s
        (s, true)

/-- Flits of an entry move while they are due and have arrived; `error` is met by the first. -/
def moveFlits (s : State) (row stop entry : Nat) (e : MeshEntry) (error : BitVec 1152) : Nat → State
  | 0 => s
  | n + 1 =>
    match moveFlit s row stop entry e error with
    | (s, true) => moveFlits s row stop entry e 0 n
    | (s, false) => s

/-- MESH_MOVE (R285): an entry applies only in the variant whose step it carries, and moves while its die's clock runs
(R218, R226). -/
def execMeshMove (row : RowId) (stop : Fin 13) (entry : MeshHop) (s : State) : Host.Outcome State Fault Refusal :=
  let n := entry.entry.val
  let e := meshEntry s row.val stop.val n
  .next (if !e.valid || e.step ≠ odGet s (od 0x2410 3) || !stageTraffic s || !dieMoves s (row.val / 12) then s
    else moveFlits s row.val stop.val n e entry.error (e.count + 1))

/-- The edge stop and row index at which a side joins a row of its plan die; none at a port die. -/
def sideStop (side row : Nat) : Option (Nat × Nat) :=
  match side with
  | 0 => some (row, 12)
  | 1 => some (12 + row, 0)
  | 2 => some (row, 0)
  | 4 => some (12 + row, 12)
  | _ => none

/-- A plan die's other side, for a pass-through (Table 11.4, far 3). -/
def otherSide (side : Nat) : Option Nat :=
  match side with
  | 0 => some 2
  | 2 => some 0
  | 1 => some 4
  | 4 => some 1
  | _ => none

/-- The die at whose edge a side lies (log entry 23): 0 P0, 1 P1, 2 Q0, 3 Q1. -/
def sideDie (side : Nat) : Nat := ([0, 1, 0, 2, 1, 3] : List Nat).getD side 3

/-- The side of the port die that a link belongs to. -/
def portSide (link : Nat) : Nat := if link < 24 then 3 else 5

/-- Interval of a stage in which unit i of an entry moves: five units in each interval of 4 ticks (R286). -/
def DieEntry.interval (e : DieEntry) (i : Nat) : Nat := e.first + i / 5

/-- The entries of a side, sending or receiving, that join a link entry (far 1), with their numbers (R281). -/
def joined (s : State) (side : Nat) (receive : Bool) (link entry : Nat) : List (Nat × DieEntry) :=
  ((dieNumbers s side).map fun j => (j, dieEntry s side j)).filter fun x =>
    x.2.valid && x.2.receive = receive && x.2.far = 1 && x.2.link = link && x.2.entry = entry

/-- Units of an entry in intervals before t. -/
def DieEntry.unitsBefore (e : DieEntry) (t : Nat) : Nat := min e.count (5 * (t - e.first))

/-- Place in its stream of unit i of entry number j among joined entries: in the order of the intervals, and of the entry
numbers in one interval (R281). -/
def streamPlace (l : List (Nat × DieEntry)) (j : Nat) (e : DieEntry) (i : Nat) : Nat :=
  let t := e.interval i
  l.foldl (fun m y =>
    m + (if y.1 = j then i else if y.1 < j then y.2.unitsBefore (t + 1) else y.2.unitsBefore t)) 0

/-- Key of a unit of a local source's stream. -/
def sourceKey (link entry place : Nat) : Nat := (link * 16384 + entry) * 2 ^ 20 + place

/-- A unit reaches a port's transmit entry at its place in the stream (R281, local source). -/
def fillSource (s : State) (link entry place : Nat) (u : BitVec 1024) : State :=
  { s with fabric := { s.fabric with sources := Table.put s.fabric.sources none (sourceKey link entry place) (some u) } }

/-- Unit i of a receive entry is delivered at its side (R286, Table 11.4). -/
def deliverUnit (s : State) (side entry i : Nat) (u : FabricUnit) : State :=
  let e := dieEntry s side entry
  if !e.valid || !e.receive then s
  else match e.far, u with
    | 0, u => match sideStop side e.row with
      | some (row, stop) => pushUnit s (portKey row stop portEdge) (stopCycle s row stop + 6) u
      | none => s
    | 1, .data u => fillSource s e.link e.entry (streamPlace (joined s side true e.link e.entry) entry e i) u
    | 2, .data u => fillInbox s e.engine (leBytes u.toNat (inboxPart s e.engine e.count i))
    | 3, u => match otherSide side with
      | some o => pushUnit s (dieKey o e.entry) (now s) u
      | none => s
    | _, _ => s

/-- Units moved of a die-to-die entry in the stage. -/
def dieMoved (s : State) (side entry : Nat) : Nat := Table.look s.fabric.dieDone 0 (side * 16384 + entry)

/-- Set the number of units of a die-to-die entry that have moved. -/
def setDieMoved (s : State) (side entry n : Nat) : State :=
  { s with fabric := { s.fabric with dieDone := Table.put s.fabric.dieDone 0 (side * 16384 + entry) n } }

/-- Does an entry of a lower number claim the module in an interval (R288)? -/
def dieClash (s : State) (side entry : Nat) (e : DieEntry) (t : Nat) : Bool :=
  (countFrom 0 entry).any fun j =>
    let x := dieEntry s side j
    x.valid && !x.receive && x.module = e.module && x.first ≤ t && t ≤ x.interval (x.count - 1)

/-- Key of a kept bale of a receive entry. -/
def forwardKey (l e i : Nat) : Nat := (l * 16384 + e) * 65536 + i

/-- Has bale i arrived on a receive entry? -/
def hasArrived (s : State) (l e i : Nat) : Bool := (Table.look s.fabric.arrived [] (l * 16384 + e)).contains i

/-- Unit i of a port die's send entry that joins a receive entry of a link: the bytes of its bales, in their order, once they
have all come (R281, R286). -/
def portUnit (s : State) (side j : Nat) (e : DieEntry) (i : Nat) : Option (BitVec 1024) :=
  let x := linkEntry s e.link e.entry
  let place := streamPlace (joined s side false e.link e.entry) j e i
  let first := 128 * place / 144
  let bales := countFrom first (min x.count ((128 * place + 127) / 144 + 1) - first)
  if bales.all (hasArrived s e.link e.entry) then
    let b := bales.flatMap fun k => leBytes (Table.look s.fabric.forwards 0 (forwardKey e.link e.entry k)).toNat 144
    some (BitVec.ofNat 1024 (leNat (slice b (128 * place % 144) 128)))
  else none

/-- Does a send entry take its units from a link's receive entry: a port die's with far 1? -/
def DieEntry.fromPort (e : DieEntry) (side : Nat) : Bool := (side = 3 || side = 5) && e.far = 1

/-- The next unit of a send entry, which leaves the FIFO at its edge where it comes from one. A unit of a receive entry whose
bales have not come by then is absent: its bytes are not written, and no bit is set (R282; log entry 24). -/
def takeUnit (s : State) (side entry : Nat) (e : DieEntry) (i : Nat) : State × Taken :=
  if e.fromPort side then
    (s, .flit (match portUnit s side entry e i with
      | some u => .data u
      | none => .absent))
  else
    match unitsAt s (dieKey side entry) with
    | (at', u) :: r => if at' + 48 ≤ now s then (setUnits s (dieKey side entry) r, .flit u) else (s, .waits)
    | [] => (s, .waits)

/-- One unit of a send entry moves: it is delivered 48 ticks after its interval starts, where both dies run; the far side's
module checks it (R226, R286, R305). -/
def moveUnit (s : State) (side entry : Nat) (e : DieEntry) (error : BitVec 1152) : State × Bool :=
  let i := dieMoved s side entry
  if e.count ≤ i || now s < s.stage.start + 4 * e.interval i + 48 then (s, false)
  else match takeUnit s side entry e i with
    | (s, .waits) => (s, false)
    | (s, .stopped) => (setDieMoved s side entry e.count, false)
    | (s, .flit u) =>
      let s := setDieMoved s side entry (i + 1)
      if dieClash s side entry e (e.interval i) then (doubleBooked s, true)
      else if !dieMoves s (sideDie (farSide side)) then (s, true)
      else
        let (s, u) := checkUnit s kindModule (16 * (side / 2) + e.module) u error
        (deliverUnit s (farSide side) entry i u, true)

/-- Units of a send entry move while they are due and have arrived; `error` is met by the first. -/
def moveUnits (s : State) (side entry : Nat) (e : DieEntry) (error : BitVec 1152) : Nat → State
  | 0 => s
  | n + 1 =>
    match moveUnit s side entry e error with
    | (s, true) => moveUnits s side entry e 0 n
    | (s, false) => s

/-- DIE_TO_DIE_MOVE (R286): while the sending die's clock runs (R218). -/
def execDieToDieMove (side : Fin 6) (entry : DieHop) (s : State) : Host.Outcome State Fault Refusal :=
  let n := entry.entry.val
  let e := dieEntry s side.val n
  .next (if !e.valid || e.receive || !stageTraffic s || !dieMoves s (sideDie side.val) then s
    else moveUnits s side.val n e entry.error (e.count + 1))

end Sys2Proof.Machine
end

