-- ==== Sys2Proof/Machine/Relay.lean ====
section
/-! DEFINITION. Which physical link carries a link of the leg, and the hops that a substitution relays (R276, R277); the
slots and ordinals of a stage (R280, Table 10.5); which plan and detour entries are active (R263, R289, R291). -/

namespace Sys2Proof.Machine

/-- Is a logical address substituted? -/
def substituted (s : State) (logical : Nat) : Bool := physicalOf s logical ≠ logical

/-- Link of this device on axis a to the peer at coordinate q, with ordinal j among those to that peer. -/
def linkToward (s : State) (a q j : Nat) : Option Nat :=
  let all := linksTo s a q
  if all.isEmpty then none else all[j % all.length]?

/-- Ordinal of a leg's link among the links to one peer. -/
def peerOrdinal (s : State) (l : Nat) : Nat := l % linksPerAxis s / max 1 (lineLength s (axisOf s l) - 1)

/-- How a link of the leg is carried: by which physical link, and whether its hop is relayed (R277). -/
structure Carriage where
  link : Nat
  relayed : Bool
  deriving DecidableEq, Repr

/-- The carriage of leg link l (R276, R277): the leg sees the device at its logical address. -/
def carriage (s : State) (l : Nat) : Option Carriage :=
  match spareAxis s, ownLogical s with
  | some a, some own =>
    match cablingAt s own l with
    | none => none
    | some (q, _) =>
      let b := axisOf s l
      let me := substituted s own
      let peer := substituted s (setAxis own b q)
      let toward (c : Nat) := (linkToward s a c (peerOrdinal s l))
      if b = a then (toward (if peer then lineLength s a - 1 else q)).map fun p => ⟨p, false⟩
      else if me then some ⟨l, !peer⟩
      else if peer then (toward (lineLength s a - 1)).map fun p => ⟨p, true⟩
      else some ⟨l, false⟩
  | _, _ => some ⟨l, false⟩

/-- The leg's links that physical link p carries, ascending. -/
def legLinks (s : State) (p : Nat) : List Nat := (countFrom 0 48).filter fun l => (carriage s l).map (·.link) = some p

/-- The delay Δ of a relay in slots (R277), by the λ_cap of the leg, from 1 to 1,024, where the device has had one. -/
def relayDelay (s : State) : Nat :=
  let cap := if odGet s (od 0x3900 3) = 0 then Config.relayCap.toNat + 1 else odGet s (od 0x3900 3)
  32 * ((cap + 48 + (2 * cap + 352) + 8 + 127) / 128)

/-- Link on which a relay sends on what arrives on physical link p (R277): between a device on the spare axis and the
substituted spare of its hop. Of two hops of one peer whose spares stand on different axes of it, a bale goes toward the one that its
plan destination stands on; a bale for neither takes the first (DEDUCED, log entry 60: the entries that R277 moves keep their
destinations). -/
def relayLink (s : State) (p dst : Nat) : Option Nat :=
  match spareAxis s, ownLogical s, cabling s p with
  | some a, none, some (q, _) =>
    let me := coordinate s
    let j := peerOrdinal s p
    if axisOf s p = a then
      let hops := (substitutions s).filterMap fun x =>
        match (usedAxes s).filter fun b => b ≠ a && onAxis x b ≠ onAxis me b with
        | [b] => if onAxis x a = q then (linkToward s b (onAxis x b) j).map fun k => (k, decide (onAxis x b = onAxis dst b)) else none
        | _ => none
      ((hops.find? (·.2)).or hops.head?).map (·.1)
    else
      (substitutions s).findSome? fun x =>
        if setAxis x a (lineLength s a - 1) = setAxis me (axisOf s p) q then linkToward s a (onAxis x a) j else none
  | _, _, _ => none

/-- Slot classes of Table 10.5. -/
def isService (n : Nat) : Bool := n % 32 = 0
def isBeacon (n : Nat) : Bool := n % 4096 = 0
def isReserve (n : Nat) : Bool := n % 32 = 16
def isDetour (n : Nat) : Bool := n % 32 = 8 || n % 32 = 24
def isPlan (n : Nat) : Bool := !isService n && !isReserve n && !isDetour n

/-- Ordinal of the m-th slot of a stage in its class (R280). -/
def slotOrdinal (m : Nat) : Nat :=
  let r := m % 32
  if isDetour m then 2 * (m / 32) + (if r = 24 then 1 else 0)
  else 28 * (m / 32) + (r - 1 - flag (8 < r) - flag (16 < r) - flag (24 < r))

/-- Slot of a stage, counted from its first, that has an ordinal (R280). -/
def ordinalSlot (detour : Bool) (o : Nat) : Nat :=
  if detour then 32 * (o / 2) + (if o % 2 = 1 then 24 else 8)
  else
    let r := o % 28
    32 * (o / 28) + r + 1 + flag (7 ≤ r) + flag (14 ≤ r) + flag (21 ≤ r)

/-- First slot number of the stage. -/
def firstSlot (s : State) : Nat := s.stage.start / 4

/-- Bale of an entry whose ordinal is o (R280). -/
def LinkEntry.baleAt (e : LinkEntry) (o : Nat) : Option Nat :=
  if e.first ≤ o && (o - e.first) % e.step = 0 && (o - e.first) / e.step < e.count then some ((o - e.first) / e.step)
  else none

/-- Is plan traffic of leg link l off its link: the link is not up, or its down notice is still in force or on its way
to an epoch (R263, R270, R291)? -/
def planOff (s : State) (l : Nat) : Bool :=
  match carriage s l with
  | none => true
  | some c =>
    let w := noticeWord s c.link false
    let st := linkState s c.link
    !(st = lsUp || st = lsReplaying) || !upInSet s s.fabric.downSet c.link || s.fabric.announced.contains w
      || s.vote.notices.contains w || (s.fabric.epochDue && s.fabric.nextSet.contains w)

/-- A transmit detour entry is a relay's where it forwards what comes as a detour; else it starts at this device. -/
def relayEntry (s : State) (e : LinkEntry) : Bool := e.tail = 1 && (linkEntry s e.joinLink e.joinEntry).detour

/-- Where a transmit entry's bales come from: its end and its place, for a member its leader's (R283). -/
def LinkEntry.source (at' : Nat → Nat → LinkEntry) (x : LinkEntry) : Nat × Nat :=
  let y := if x.tail = 2 then at' x.joinLink x.joinEntry else x
  (y.tail, y.place)

/-- Does a transmit entry carry the same bales as another: their source and destination? -/
def LinkEntry.sameBales (at' : Nat → Nat → LinkEntry) (x y : LinkEntry) : Bool :=
  decide (x.source at' = y.source at') && x.dst = y.dst

/-- Bales of the detour entries before entry n of link l that carry the same bales for the same covered link, over other links
(R289), in the order of links and entry numbers. -/
def detouredBefore (s : State) (l n : Nat) (e : LinkEntry) : Nat :=
  (countFrom 0 (l + 1)).foldl (fun t k => (linkNumbers s k).foldl (fun t j =>
    let x := linkEntry s k j
    if (k < l || j < n) && k ≠ e.covered && x.valid && !x.receive && x.detour && x.covered = e.covered
        && x.sameBales (linkEntry s) e then t + x.count
    else t) t) 0

/-- The plan entry, with its bale, that the bale of number g of a run of plan entries of a link is: entries in order. -/
def planBale (s : State) (l : Nat) : List Nat → Nat → Option (Nat × Nat)
  | [], _ => none
  | p :: r, g => let c := (linkEntry s l p).count; if g < c then some (p, g) else planBale s l r (g - c)

/-- The plan entry whose bales detour entry n of link l carries, and the first of them. The detour entries that together carry
the bales of a covered link's plan entries of one source and destination take them in the order of links and entry numbers
(R289; DESIGN CHOICE, log entry 28: no field of an entry names its first bale). -/
def coveredEntry (s : State) (l n : Nat) (e : LinkEntry) : Option (Nat × Nat) :=
  let plans := (linkNumbers s e.covered).filter fun p =>
    let x := linkEntry s e.covered p
    x.valid && !x.receive && !x.detour && x.sameBales (linkEntry s) e
  planBale s e.covered plans (detouredBefore s l n e)

/-- Has bale i of plan entry p on leg link l to go by the detour: booked after the link was lost, or sent on it and not
acknowledged (R263)? -/
def detourDue (s : State) (l p i : Nat) : Bool :=
  match carriage s l with
  | none => true
  | some c =>
    let k := getLink s c.link
    let x := linkEntry s l p
    let at' := firstSlot s + ordinalSlot false (x.first + i * x.step)
    k.downAt ≤ 4 * at' || k.detours.any fun b => hEntry (baleHeader b) = p && hIndex (baleHeader b) = i

/-- Does transmit entry n claim the slot for its bale i (R263, R289, R291)? -/
def entryActive (s : State) (l n : Nat) (e : LinkEntry) (i : Nat) : Bool :=
  if !e.detour then !planOff s l
  else if relayEntry s e then
    (Table.look s.fabric.arrived [] (e.joinLink * 16384 + e.joinEntry)).contains i
  else planOff s e.covered && (match coveredEntry s l n e with
    | some (p, first) => detourDue s e.covered p (first + i)
    | none => true)

/-- The entries, with their leg links, that physical link p carries, by entry number. -/
def legEntries (s : State) (p : Nat) : List (Nat × Nat) :=
  let links := legLinks s p
  (countFrom 0 (links.foldl (fun m l => max m (linkNumbers s l).length) 0)).flatMap fun i => links.map fun l => (i, l)

end Sys2Proof.Machine
end

