-- ==== Sys2Proof/Machine/Bales.lean ====
section
/-! DEFINITION. Sending and receiving bales: the slots of a link, replay, and the ends of plan and detour entries
(R249 to R260, R263, R267, R270, R277, R281 to R284, R288, R290 to R295, R483; log entries 25 and 28). -/

namespace Sys2Proof.Machine

/-- A header with its per-slot fields: seq, cumulative acknowledgement and nak (Table 10.3). -/
def stampHeader (h seq ack : Nat) (nak : Option Nat) (replay : Bool) : Nat :=
  let h := putBits (putBits h 90 79 seq) 78 67 ack
  let h := putBits (putBits h 66 66 (flag nak.isSome)) 65 54 (nak.getD 0)
  putBits h 92 92 (flag replay)

/-- Units of the stream that feeds a local-source entry (R281). -/
def streamUnits (s : State) (l e : Nat) : Nat :=
  (joined s (portSide l) true l e).foldl (fun t x => t + x.2.count) 0

/-- Bytes 144 i to 144 i + 143 of a local source's stream, zero beyond its end and where they have not come, with whether any
is missing (R281). -/
def streamBale (s : State) (l e i : Nat) : Bytes × Bool :=
  let units := streamUnits s l e
  let first := 144 * i / 128
  let held := (countFrom first 3).map fun p => (p, Table.look s.fabric.sources none (sourceKey l e p))
  let b := held.flatMap fun x => match x.2 with
    | some u => leBytes u.toNat 128
    | none => zeroBytes 128
  (slice b (144 * i % 128) 144,
    held.any fun x => x.1 < units && 128 * x.1 < 144 * i + 144 && x.2.isNone)

/-- Has the consignment of a local source stopped at a failed read: a mesh entry that starts its stream at the source's core (R125)? -/
def sourceStopped (s : State) (units : Nat) (e : LinkEntry) : Bool :=
  let row := e.core / 12
  let stop := physOf s e.core % 13
  (meshNumbers s row stop).any fun j =>
    let x := meshEntry s row stop j
    x.valid && x.step = odGet s (od 0x2410 3) && x.input = portOwn && e.address ≤ x.address && x.address < e.address + 128 * units
      && endBroken s (meshEnd row stop j) && x.count ≤ meshMoved s row stop j

/-- The link and entry whose stream a local source sends, with the number of its first bale: its own, or for a detour entry without
one that of the covered plan entry or of its leader (R283, R289). -/
def streamSource (s : State) (l n : Nat) (e : LinkEntry) : Nat × Nat × Nat :=
  match if e.detour && streamUnits s l n = 0 then coveredEntry s l n e else none with
  | some (p, first) =>
    let x := linkEntry s e.covered p
    if x.tail = 2 then (x.joinLink, x.joinEntry, first) else (e.covered, p, first)
  | none => (l, n, 0)

/-- Payload of bale i of a source or forward entry, with whether bytes of it are missing; none where it has nothing to
send (R281). -/
def sourcePayload (s : State) (l n i : Nat) (e : LinkEntry) : Option (Bytes × Bool) :=
  match e.tail with
  | 0 =>
    let x := streamSource s l n e
    some (streamBale s x.1 x.2.1 (x.2.2 + i))
  | 1 =>
    let i := if e.detour && !relayEntry s e then i + (match coveredEntry s l n e with
      | some (_, first) => first
      | none => 0) else i
    if hasArrived s e.joinLink e.joinEntry i then
      some (leBytes (Table.look s.fabric.forwards 0 (forwardKey e.joinLink e.joinEntry i)).toNat 144, false)
    else none
  | _ => none

/-- Is bale i of a local-source entry one that its stopped consignment does not send: bytes of it are missing (R125)? -/
def streamStopped (s : State) (l n i : Nat) (e : LinkEntry) : Bool :=
  let x := streamSource s l n e
  e.tail = 0 && (streamBale s x.1 x.2.1 (x.2.2 + i)).2 && sourceStopped s (streamUnits s x.1 x.2.1) (linkEntry s x.1 x.2.1)

/-- Does a booked bale stay away because its consignment has stopped? A member shares its leader's source (R125, R283). -/
def entryStopped (s : State) (l n i : Nat) (e : LinkEntry) : Bool :=
  if e.tail = 2 then streamStopped s e.joinLink e.joinEntry i (linkEntry s e.joinLink e.joinEntry)
  else streamStopped s l n i e

/-- Payload of bale i of any transmit entry: a member shares its leader's source (R283). -/
def entryPayload (s : State) (l n i : Nat) (e : LinkEntry) : Option (Bytes × Bool) :=
  if e.tail = 2 then sourcePayload s e.joinLink e.joinEntry i (linkEntry s e.joinLink e.joinEntry)
  else sourcePayload s l n i e

/-- Does a slot lie in the stage that runs? -/
def slotInStage (s : State) (n : Nat) : Bool :=
  stageTraffic s && firstSlot s ≤ n && 4 * (n - firstSlot s) < s.stage.length

/-- The transmit entries that claim slot n of physical link p: number, leg link and bale, by entry number (R288). -/
def claims (s : State) (p n : Nat) : List (Nat × Nat × Nat) :=
  if !slotInStage s n || !(isPlan n || isDetour n) then []
  else
    let m := n - firstSlot s
    (legEntries s p).filterMap fun x =>
      let (i, l) := x
      let e := linkEntry s l i
      if e.valid && !e.receive && e.detour = isDetour n then
        match e.baleAt (slotOrdinal m) with
        | some k => if entryActive s l i e k then some (i, l, k) else none
        | none => none
      else none

/-- What goes into a slot. -/
structure Sending where
  header : Nat
  payload : Bytes
  /-- Event of Table 17.4 that counts it; 0 for none. -/
  event : Nat
  deriving DecidableEq, Repr

/-- An idle bale. -/
def idleSending (s : State) : Sending := ⟨flag (epochBit s) * 2 ^ 91, [], 0x24⟩

/-- A link-control bale. -/
def controlSending (s : State) (op param : Nat) : Sending :=
  ⟨4 * 2 ^ 93 + flag (epochBit s) * 2 ^ 91 + op % 256 * 2 ^ 46 + param % 2 ^ 46, [], 0⟩

/-- Bale i of detour entry n of leg link l has gone (R254). -/
def noteDetoured (s : State) (l n i : Nat) : State :=
  { s with fabric := { s.fabric with detoured := (l, n, i) :: s.fabric.detoured } }

/-- The booked bale of an entry: what the lowest of the claims sends, its double bookings and its missing bytes
(R281, R288). A forward bale that has not come leaves its slot idle; one whose consignment has stopped leaves it free (R125). -/
def bookedSending (s : State) (detour : Bool) : List (Nat × Nat × Nat) → Option (State × Sending)
  | [] => none
  | (n, l, i) :: rest =>
    let s := rest.foldl (fun s _ => doubleBooked s) s
    let e := linkEntry s l n
    if entryStopped s l n i e then none
    else match entryPayload s l n i e with
    | none => some (s, idleSending s)
    | some (b, missing) =>
      let s := if missing then setCause s causeBooking else s
      let s := if detour then noteDetoured s l n i else s
      let cls := if detour then 2 else 1
      some (s, ⟨cls * 2 ^ 93 + flag (epochBit s) * 2 ^ 91 + n * 2 ^ 40 + i * 2 ^ 24 + e.dst * 2 ^ 4, b,
        if detour then 0x22 else 0x20⟩)

/-- A bale that a relay has to send in this slot (R277). -/
def relaySending (s : State) (p n : Nat) : Option (State × Sending) :=
  let k := getLink s p
  match k.relays.find? fun x => x.1 = n with
  | none => none
  | some x =>
    let h := baleHeader x.2
    some (setLink s p { k with relays := k.relays.filter fun y => n < y.1 },
      ⟨h, balePayload x.2, if hClass h = 2 then 0x22 else 0x20⟩)

/-- The next replay that may go, its copy with the replay flag (R257). -/
def replaySending (s : State) (p : Nat) : Option (State × Sending) :=
  let k := getLink s p
  match k.replays with
  | [] => none
  | r :: rest =>
    if now s < r.readyAt then none
    else match k.copies.find? fun c => c.1 = r.seq with
      | none => some (setLink s p { k with replays := rest }, idleSending s)
      | some c =>
        let s := odAdd (setLink s p { k with replays := rest }) (od (linkIndex p) 0x14) 1
        some (s, ⟨setBit (baleHeader c.2) 92, balePayload c.2, 0x21⟩)

/-- A dynamic bale as it leaves its queue. -/
def dynamicBale (b : BitVec 1280) : Sending := ⟨baleHeader b, balePayload b, 0x23⟩

/-- The next dynamic bale of a link: a vote, then those to be sent again, then the queue's, of the lowest port (R254, R267, R268,
R296). -/
def dynamicSending (s : State) (p : Nat) : Option (State × Sending) :=
  let k := getLink s p
  match k.dynamic, k.again with
  | (0, b) :: rest, _ => some (setLink s p { k with dynamic := rest }, dynamicBale b)
  | _, b :: rest => some (setLink s p { k with again := rest }, dynamicBale b)
  | b :: rest, [] => some (setLink s p { k with dynamic := rest }, dynamicBale b.2)
  | [], [] => none

/-- The next link-control bale of a service slot (R254); an ECHO REPLY gives the time from the arrival it answers to
this slot's start, an ECHO notes when it was sent, READY ends training, and the HELLO of a loaded counter restarts the
numbering at its slot (R265, R267). -/
def serviceControl (s : State) (p n : Nat) : Option (State × Sending) :=
  let k := getLink s p
  match k.control with
  | [] => none
  | (op, param) :: rest =>
    let at' := 64 * n
    let k := { k with control := rest }
    if op = 6 then some (setLink s p k, controlSending s 6 ((at' + 2 ^ 46 - param.toNat) % 2 ^ 46))
    else if op = 5 then some (setLink s p { k with echoSent := at' }, controlSending s 5 0)
    else if op = 1 && k.restarting then
      some (setLink s p { restartSequence k n with lastAck := now s }, controlSending s 1 param.toNat)
    else some (setLink s p k, controlSending s op.toNat param.toNat)

/-- The beacon of slot n (Table 9.4). -/
def beaconWord (s : State) (p n : Nat) : Nat :=
  4 * n % 2 ^ 48 * 2 ^ 48 + odGet s (od 0x2400 3) % 2 ^ 20 * 2 ^ 28 + odGet s (od 0x2400 7) % 2 ^ 12 * 2 ^ 16
    + odGet s (od 0x2400 5) % 16 * 2 ^ 12 + odGet s (od 0x2400 2) % 16 * 2 ^ 8 + p % 64

/-- The detour bales that are ready for a free slot n of link p, with their booked slots: to be sent (R263, R289) and not sent, where
their booked slot of the stage is over. DESIGN CHOICE (log entry 60): R254 does not say when a detour bale is ready. -/
def readyDetours (s : State) (p n : Nat) : List (Nat × Nat × Nat × Nat) :=
  if !slotInStage s n then []
  else (legEntries s p).flatMap fun x =>
    let (i, l) := x
    let e := linkEntry s l i
    if e.valid && !e.receive && e.detour then
      (countFrom 0 e.count).filterMap fun k =>
        let at' := ordinalSlot true (e.first + k * e.step)
        if at' < n - firstSlot s && entryActive s l i e k && !s.fabric.detoured.contains (l, i, k) && !entryStopped s l i k e
            && (entryPayload s l i k e).isSome then some (at', i, l, k)
        else none
    else []

/-- A detour bale in a free slot of link p: of those that are ready, the one whose booked slot came first (R254). Its receiver judges it by
R284. -/
def detourSending (s : State) (p n : Nat) : Option (State × Sending) :=
  match readyDetours s p n with
  | [] => none
  | x :: rest => bookedSending s true [(rest.foldl (fun a b => if b.1 < a.1 then b else a) x).2]

/-- The first of R254's bales that is ready: replay, detour, dynamic, idle. A free detour slot takes no detour bale (Table 10.5), and no
slot does in one-lane operation (R270). -/
def freeSlot (s : State) (p n : Nat) : State × Sending :=
  match replaySending s p with
  | some x => x
  | none => match (if isDetour n || linkState s p = lsNarrow then none else detourSending s p n) with
    | some x => x
    | none => match dynamicSending s p with
      | some x => x
      | none => (s, idleSending s)

/-- What a link that carries its classes sends in slot n (R254, Table 10.5). -/
def upSlot (s : State) (p n : Nat) : State × Sending :=
  let narrow := linkState s p = lsNarrow
  match (if isService n then serviceControl s p n else none) with
  | some x => x
  | none => if (getLink s p).restarting then (s, idleSending s) else match (if narrow then none else relaySending s p n) with
    | some x => x
    | none => match (if narrow then none else bookedSending s (isDetour n) (claims s p n)) with
      | some x => x
      | none => freeSlot s p n

/-- The next number to name in a nak: one detected 4 ticks ago, or named once more (R256). -/
def Link.nakReady (k : Link) (n : Nat) : Option Nat :=
  k.nakNow.find? fun m => (k.naks.find? fun y => y.seq = m).all fun y => 1 < y.times || y.sent + 4 ≤ 4 * n

/-- A bale leaves in slot n with the link's acknowledgement and nak, and its copy is kept for 1,024 slots or until it is
acknowledged (R256). What leaves before the HELLO of a loaded counter is not numbered, and no copy of it is kept (R267). -/
def sendBale (s : State) (p n : Nat) (x : Sending) : State :=
  let k := getLink s p
  let nak := k.nakReady n
  let replay := bitAt x.header 92
  let seq := if replay then hSeq x.header else n % 4096
  let bale := makeBale (stampHeader x.header seq (k.cumulative % 4096) (nak.map (· % 4096)) replay) x.payload
  let s := setLink s p { k with
    nakNow := k.nakNow.filter fun m => some m ≠ nak
    naks := k.naks.map fun y => if some y.seq = nak then { y with sent := now s } else y
    copies := if k.restarting then k.copies else (k.copies.filter fun c => n < c.1 + 1024 || k.acked < c.1) ++ [(n, bale)] }
  let s := if x.event = 0 then s else linkEvent s p x.event 1
  emit s (.bale p n bale)

/-- The beacon slot's bale: no acknowledgement, no copy (R253). -/
def sendBeacon (s : State) (p n : Nat) : State := emit s (.bale p n (makeBale (beaconWord s p n) []))

/-- Idle units that begin a period of 32 bales (R249): as many as let its first bale begin at the first unit boundary at or
after its slot's start, from 3 to 5; 4 in the first period after training. A line sends 1,285 units in 128 cycles, in one-lane
operation in 256 (R270). -/
def idleUnits (s : State) (p : Nat) : Nat :=
  let k := getLink s p
  let span := if linkState s p = lsNarrow then 256 else 128
  let boundary := (1285 * (s.time.cycles - k.lineAt) + span - 1) / span
  if k.lineUnits = 0 then 4 else max 3 (min 5 (boundary - k.lineUnits - 1))

/-- The 40 units of a bale: byte 0 first, bit 7 of each byte first (R248). -/
def baleUnits (b : BitVec 1280) : List (BitVec 32) := (countFrom 0 40).map fun i => BitVec.ofNat 32 (b.toNat / 2 ^ (1248 - 32 * i))

/-- Where unit u of the message stream begins: its codeword, the lane that carries it in UP, and the bit of its 5,140 message
bits (R248). -/
def unitPlace (u : Nat) : Nat × Nat × Nat := (32 * u / 5140, 32 * u / 5140 % 2, 32 * u % 5140)

/-- A period begins with slot n: its count unit and idle units go before its bales (R249, R270). A line that carries nothing
sends none. The receiver skips as many units as the count unit names, so that BALE_RECEIVE names a bale without them. -/
def startPeriod (s : State) (p n : Nat) : State :=
  let k := getLink s p
  let length := if linkState s p = lsNarrow then 64 else 32
  if n % length ≠ 0 || !(linkUp s p || 0 < k.downSlots || (training s p && (3 ≤ k.trainStep || !k.control.isEmpty))) then s
  else
    let cc := idleUnits s p
    let span := if linkState s p = lsNarrow then 256 else 128
    let first := if k.lineUnits = 0 then (1285 * (s.time.cycles - k.lineAt) + span - 1) / span else k.lineUnits + 1 + cc
    let s := setLink s p { k with lineUnits := first + 1280 }
    emit s (.units p n (BitVec.ofNat 32 (0x5A5A0000 + cc) :: List.replicate cc 0))

/-- The DOWN of a declaration, with its cause (R262). -/
def sendDown (s : State) (p n : Nat) : State :=
  let k := getLink s p
  let x := controlSending s 3 (odGet s (od (linkIndex p) 0x19) * 2 ^ 40)
  let s := setLink s p { k with downSlots := k.downSlots - 1 }
  emit s (.bale p n (makeBale (stampHeader x.header (n % 4096) (k.cumulative % 4096) none false) []))

/-- A slot in training (R265): the beacon in its own, link control in the service slots, with HELLO until the far end's has
come. -/
def trainSlot (s : State) (p n : Nat) : State :=
  let step := (getLink s p).trainStep
  if isBeacon n then (if step < 3 then s else sendBeacon s p n)
  else if !isService n then (if step < 3 then s else sendBale s p n (idleSending s))
  else
    let s := if step = 3 && (getLink s p).control.isEmpty then sendControl s p 1 (helloParam s p) else s
    let ready : Bool := step = 6 && (getLink s p).control.head?.map (·.1) = some 7
    match serviceControl s p n with
    | some (s, x) =>
      let s := sendBale s p n x
      if ready then readySent s p else s
    | none => if step < 3 then s else sendBale s p n (idleSending s)

/-- Slot n of link p starts (R254, R262, R265, R270): DOWN takes the 64 slots after a declaration. -/
def startSlot (s : State) (p n : Nat) : State :=
  let st := linkState s p
  if linkUp s p then
    if st = lsNarrow && n % 2 = 1 then s
    else if isBeacon n then sendBeacon s p n
    else
      let (s, x) := upSlot s p n
      noteReplaying (sendBale s p n x) p
  else if 0 < (getLink s p).downSlots then sendDown s p n
  else if training s p then trainSlot s p n
  else s

/-- SLOT_START (R254): each slot of the link once. A port die in reset sends nothing (R466). -/
def execSlotStart (link : LinkId) (s : State) : Host.Outcome State Fault Refusal :=
  let n := now s / 4
  .next (if n < (getLink s link.val).nextSlot || !portRuns s link.val then s
    else startSlot (startPeriod (modLink s link.val fun k => { k with nextSlot := n + 1 }) link.val n) link.val n)

/-- A bale is bad (R251, R256, R261): counted, named by a nak, and in step 5 of training the end of the attempt. -/
def takeBad (s : State) (p slot : Nat) : State :=
  let s := odAdd s (od (linkIndex p) 0x10) 1
  let s :=
    if isBeacon slot then s
    else modLink s p fun k => { k with
      nakNow := k.nakNow ++ [slot], naks := k.naks ++ [⟨slot, now s, 1⟩] }
  let s := noteReplaying s p
  if 17 ≤ odGet s (od (linkIndex p) 0x10) then declareDown s p 1 else s

/-- The cumulative acknowledgement moves on over what has been received, beacon slots and, in one-lane operation, odd
slots but those that came bad before it (R253, R256, R270). -/
def advanceCumulative (received : Table Bool) (narrow : Bool) (bad : List Nat) : Nat → Nat → Nat
  | 0, c => c
  | n + 1, c =>
    if isBeacon (c + 1) || Table.look received false (c + 1) || (narrow && (c + 1) % 2 = 1 && !bad.contains (c + 1)) then
      advanceCumulative received narrow bad n (c + 1)
    else c

/-- Slot numbers are received (R256, R257, R259). -/
def noteReceived (s : State) (p : Nat) (slots : List Nat) : State :=
  let narrow : Bool := linkState s p = lsNarrow
  modLink s p fun k =>
    let r := slots.foldl (fun t n => Table.put t false n true) k.received
    let newest := slots.foldl max 0
    let r := r.filter fun e => newest < e.1 + 1024
    let naks := k.naks.filter fun y => !slots.contains y.seq
    { k with received := r, cumulative := advanceCumulative r narrow (naks.map (·.seq)) 4097 k.cumulative
             naks := naks, nakNow := k.nakNow.filter fun y => !slots.contains y }

/-- The acknowledgement and the nak of a good bale (R256, R257). -/
def takeLinkAck (s : State) (p h : Nat) : State :=
  let k := getLink s p
  let cur := now s / 4
  if k.restarting then s else
  let a := fullSeq cur (hAck h)
  let k := if k.acked < a && a < k.nextSlot then { k with acked := a, lastAck := now s } else k
  let k := { k with copies := k.copies.filter fun c => cur < c.1 + 1024 || k.acked < c.1 }
  let k :=
    if !hNakValid h then k
    else
      let m := fullSeq cur (hNak h)
      match k.copies.find? fun c => c.1 = m with
      | none => k
      | some c =>
        let orig := fullSeq cur (hSeq (baleHeader c.2))
        { k with replays := k.replays ++ [⟨orig, 4 * orig, now s + 4⟩] }
  noteReplaying (setLink s p k) p

/-- Planned arrival, plus D_r, has passed for a bale of a slot (event 0x27). -/
def noteLate (s : State) (p slot : Nat) : State :=
  if 4 * slot + linkLatency s p + 48 + replayDelay s p < now s + 8 then linkEvent s p 0x27 1 else s

/-- A plan or detour bale that R284 discards. -/
def unexpectedBale (s : State) : State :=
  let s := odAdd s (od 0x3904 2) 1
  if runs s then setCause s causeBooking else s

/-- Indexes in order that have come: the length of the run from 0. -/
def arrivedRun (l : List Nat) : Nat → Nat → Nat
  | 0, i => i
  | n + 1, i => if l.contains i then arrivedRun l n (i + 1) else i

/-- Bytes of bales i to i + n - 1 of a receive entry. -/
def keptBytes (s : State) (l e i n : Nat) : Bytes :=
  (countFrom i n).flatMap fun j => leBytes (Table.look s.fabric.forwards 0 (forwardKey l e j)).toNat 144

/-- The bales of a glaze end go to the inbox in order; the filling of the last bale beyond whole lines does not (R281). -/
def fillFrom (s : State) (l n : Nat) (e : LinkEntry) (old : List Nat) : State :=
  let done := arrivedRun old e.count 0
  let new := arrivedRun (Table.look s.fabric.arrived [] (l * 16384 + n)) e.count 0
  let b := keptBytes s l n done (new - done)
  fillInbox s e.engine (if new = e.count then b.take (b.length - 144 * e.count % 64) else b)

/-- An accepted bale acts at its entry's end (R281, R282). The bytes of a deliver, inbox or reduce end go on by the die-to-die and
mesh entries that book their path; DESIGN CHOICE (log entry 24): where the leg's tables book none, they are written, or added, at
once. -/
def endBale (s : State) (l n i : Nat) (e : LinkEntry) (b : Bytes) : State :=
  let key := l * 16384 + n
  let old := Table.look s.fabric.arrived [] key
  let f := s.fabric
  let onward := e.tail ≠ 0 && !(joined s (portSide l) false l n).isEmpty
  let s := { s with fabric := { f with
    arrived := Table.put f.arrived [] key (old ++ [i])
    forwards := if e.tail = 0 || e.tail = 2 || onward then
        Table.put f.forwards 0 (forwardKey l n i) (BitVec.ofNat 1152 (leNat b))
      else f.forwards } }
  if onward then s
  else match e.tail with
  | 0 => s
  | 2 => fillFrom s l n e old
  | t =>
    let (s, ok) :=
      if t = 1 then fillLine s e.core (e.address + 144 * i) b
      else
        let m := 144 / reduceSize e.input
        reduceElements s e.core e e.address (m * i) b m
    let s := if ok then s else breakEnd s key
    if old.length + 1 = e.count && !endBroken s key then setWaybill s e.core e.waybill else s

/-- The receive entry that a bale names, on the leg links that the physical link carries: leg link and entry. -/
def receiveEntry (s : State) (p n : Nat) (detour : Bool) : Option (Nat × LinkEntry) :=
  (legLinks s p).findSome? fun l =>
    let e := linkEntry s l n
    if e.valid && e.receive && e.detour = detour then some (l, e) else none

/-- Ordinal in which a bale of an entry is to arrive: a relayed hop adds its delay (R277, R284). -/
def arrivalOrdinal (s : State) (l i : Nat) (e : LinkEntry) : Nat :=
  let relayed := match carriage s l with
    | some c => c.relayed
    | none => false
  e.first + i * e.step + (if relayed then relayDelay s / 32 * (if e.detour then 2 else 28) else 0)

/-- A plan or detour bale arrives that its sender first sent in `slot` (R277, R281, R284, R483). -/
def takePlan (s : State) (p slot : Nat) (bale : BitVec 1280) : State :=
  let h := baleHeader bale
  match relayLink s p (hPlanDst h) with
  | some q =>
    let s := odAdd s (od 0x3904 3) 1
    modLink s q fun k => { k with relays := k.relays ++ [(slot + relayDelay s, bale)] }
  | none =>
    if !stageTraffic s || slot < firstSlot s then odAdd s (od 0x3904 2) 1
    else
      let detour : Bool := hClass h = 2
      let i := hIndex h
      match receiveEntry s p (hEntry h) detour with
      | none => unexpectedBale s
      | some (l, e) =>
        let came := hasArrived s l (hEntry h) i
        if e.count ≤ i || hPlanDst h ≠ e.dst || isDetour slot ≠ detour || isPlan slot = detour
            || slotOrdinal (slot - firstSlot s) ≠ arrivalOrdinal s l i e || (came && !hReplay h) then unexpectedBale s
        else if came then s
        else endBale (noteLate s p slot) l (hEntry h) i e (balePayload bale)

/-- A dynamic bale arrives on a link (R290, R292 to R295): it goes on, or its end-to-end header is taken. The flag says
that its contents act at this device; a vote and an acknowledgement-only bale are outside the numbering. -/
def takeDynamic (s : State) (p : Nat) (bale : BitVec 1280) : State × Bool :=
  let h := baleHeader bale
  let kind := hKind h
  if kind = 0 || 7 < kind then (odAdd s (od 0x3904 2) 1, false)
  else if kind = 1 then (s, true)
  else if !isOwn s (hDst h) then
    (if hEpoch h ≠ epochBit s && s.fabric.old.isEmpty then completeDropped s bale 0x14 else forwardBale s p bale, false)
  else if kind = 2 then
    let w := getWindow s (hSrc h)
    (setWindow s (hSrc h) { w with echoDue := w.echoDue || hMark h }, true)
  else
    let word := field (balePayload bale) 0 8
    let (s, fresh) := takeSeq s (hSrc h) (bits word 63 48) (hMark h)
    let s := takeAck s (hSrc h) (bits word 47 32) (hEcho h)
    (if fresh then s else odAdd s (od (linkIndex p) 0x16) 1, fresh)

/-- A good bale of a link that carries its classes (R252 to R260). The flag says that its contents act. -/
def takeGood (s : State) (p slot : Nat) (bale : BitVec 1280) : State × Bool :=
  let h := baleHeader bale
  let s := takeLinkAck s p h
  let orig := if hReplay h then fullSeq slot (hSeq h) else slot
  let s := if hReplay h then odAdd s (od (linkIndex p) 0x15) 1 else s
  if hReplay h && (Table.look (getLink s p).received false orig || orig + 1024 < slot) then
    (noteReplaying (noteReceived (odAdd s (od (linkIndex p) 0x16) 1) p [slot]) p, false)
  else
    let s := noteReplaying (noteReceived s p [slot, orig]) p
    match hClass h with
    | 1 => (takePlan s p orig bale, false)
    | 2 => (takePlan s p orig bale, false)
    | 3 => takeDynamic s p bale
    | 4 => (s, true)
    | _ => (s, false)

/-- A received bale's decoding (R251, R252): its bytes where it is good, and whether the bale code corrected it. -/
def decodeBale (bale : BitVec 1280) (beacon fec : Bool) : Option (BitVec 1280 × Bool) :=
  if fec then none
  else
    let ok (b : BitVec 1280) (corrected : Bool) :=
      if !beacon && hReserved (baleHeader b) then none else some (b, corrected)
    match rsDecode (baleBytes bale) with
    | .clean => ok bale false
    | .corrected w => ok (packBale w) true
    | .uncorrectable => none

/-- A bale arrives in the slot of a sequence number (R251 to R260, R265): the link's part of it, and the bale whose
contents act, if any. In the first steps of a retraining only a RETRAIN does, sent before the far end had this end's (R269). -/
def receiveBale (s : State) (p : Nat) (seq : Nat) (bale : BitVec 1280) (fec : FecReading) : State × Option (BitVec 1280) :=
  let slot := fullSeq (now s / 4 + 8) seq
  let step5 : Bool := (getLink s p).trainStep = 5
  let early : Bool := training s p && (getLink s p).trainStep ≤ 2
  if !portRuns s p || (early && linkState s p ≠ lsRetraining) || !(linkUp s p || training s p || linkState s p = lsHeld) then (s, none)
  else
    let s := odAdd s (od (linkIndex p) 0x12) fec.symbols
    let s := if fec.uncorrectable then odAdd s (od (linkIndex p) 0x13) 1 else s
    match decodeBale bale (isBeacon slot) fec.uncorrectable with
    | none =>
      if linkUp s p then
        let s := takeBad s p slot
        (if isBeacon slot && linkUp s p then noteReceived s p [slot] else s, none)
      else (if step5 then failAttempt s p else s, none)
    | some (b, corrected) =>
      let s := if corrected then odAdd s (od (linkIndex p) 0x11) 1 else s
      if linkUp s p then
        if isBeacon slot then (noteReceived s p [slot], some b)
        else
          let (s, act) := takeGood s p slot b
          (s, if act then some b else none)
      else
        let control : Bool := !isBeacon slot && hClass (baleHeader b) = 4 && (!early || hOp (baleHeader b) = 2)
        let s :=
          if step5 then
            let s := modLink s p fun k => { k with cleanSlots := k.cleanSlots + 1 }
            if (getLink s p).cleanSlots = 4096 then finishClean s p else s
          else s
        (s, if control then some b else none)

end Sys2Proof.Machine
end

