-- ==== Sys2Proof/Machine/Hash.lean ====
section
/-! DEFINITION. SHA-256 (FIPS 180-4), by which leg images, cargo pages, keys and firmware are named (R381, R384 to R386, R397,
R470). The spec names the function and does not print it: PRESUMED from the standard (log entry 30). Its constants are kept
packed, and its words in lists, the first word first. -/

namespace Sys2Proof.Machine

/-- The 32-bit words of n-word number v, most significant word first. -/
def packedWords (n v : Nat) : List (BitVec 32) := (countFrom 0 n).map fun i => BitVec.ofNat 32 (v / 2 ^ (32 * (n - 1 - i)))

/-- The additive constants of the 64 rounds, 16 to a number. -/
def shaConstants : List (BitVec 32) :=
  ([
    0x428a2f9871374491b5c0fbcfe9b5dba53956c25b59f111f1923f82a4ab1c5ed5d807aa9812835b01243185be550c7dc372be5d7480deb1fe9bdc06a7c19bf174,
    0xe49b69c1efbe47860fc19dc6240ca1cc2de92c6f4a7484aa5cb0a9dc76f988da983e5152a831c66db00327c8bf597fc7c6e00bf3d5a7914706ca635114292967,
    0x27b70a852e1b21384d2c6dfc53380d13650a7354766a0abb81c2c92e92722c85a2bfe8a1a81a664bc24b8b70c76c51a3d192e819d6990624f40e3585106aa070,
    0x19a4c1161e376c082748774c34b0bcb5391c0cb34ed8aa4a5b9cca4f682e6ff3748f82ee78a5636f84c878148cc7020890befffaa4506cebbef9a3f7c67178f2
  ] : List Nat).flatMap (packedWords 16)

/-- The chaining value before the first block. -/
def shaStart : List (BitVec 32) :=
  packedWords 8 0x6a09e667bb67ae853c6ef372a54ff53a510e527f9b05688c1f83d9ab5be0cd19

/-- Exclusive or of a word turned right by the amounts of a list. -/
def turned (l : List Nat) (x : BitVec 32) : BitVec 32 := l.foldl (fun v n => v ^^^ x.rotateRight n) 0

/-- Bit by bit, y where x is 1 and z where it is 0. -/
def chosen (x y z : BitVec 32) : BitVec 32 := z ^^^ (x &&& (y ^^^ z))

/-- Bit by bit, the value that at least two of three words have. -/
def atLeastTwo (x y z : BitVec 32) : BitVec 32 := (x &&& (y ||| z)) ||| (y &&& z)

/-- One round: the eight working words after the sum v of its constant and its message word enters. -/
def shaRound (v : BitVec 32) : List (BitVec 32) → List (BitVec 32)
  | [p, q, r, w, x, y, z, last] =>
    let enters := v + last + chosen x y z + turned [6, 11, 25] x
    [enters + atLeastTwo p q r + turned [2, 13, 22] p, p, q, r, w + enters, x, y, z]
  | l => l

/-- The message word that follows the last sixteen. -/
def shaNext (m : List (BitVec 32)) : BitVec 32 :=
  let low := m.getD 1 0
  let high := m.getD 14 0
  m.headD 0 + m.getD 9 0 + (turned [7, 18] low ^^^ low >>> (3 : Nat)) + (turned [17, 19] high ^^^ high >>> (10 : Nat))

/-- The rounds of one block, for the constants that are left. -/
def shaRounds : List (BitVec 32) → List (BitVec 32) → List (BitVec 32) → List (BitVec 32)
  | [], _, l => l
  | k :: r, m, l => shaRounds r (m.drop 1 ++ [shaNext m]) (shaRound (k + m.headD 0) l)

/-- n blocks of 64 bytes enter the chaining value. -/
def shaBlocks : Nat → Bytes → List (BitVec 32) → List (BitVec 32)
  | 0, _, l => l
  | n + 1, b, l => shaBlocks n (b.drop 64) (List.zipWith (· + ·) l (shaRounds shaConstants (packedWords 16 (beNat (slice b 0 64))) l))

/-- The message with its end mark and its length in bits, in whole blocks. -/
def shaPad (b : Bytes) : Bytes :=
  b ++ [0x80] ++ zeroBytes ((119 - b.length % 64) % 64) ++ beBytes (8 * b.length) 8

/-- SHA-256 of a byte string: 32 bytes. -/
def sha256 (b : Bytes) : Bytes :=
  let p := shaPad b
  (shaBlocks (p.length / 64) p shaStart).flatMap fun w => beBytes w.toNat 4

end Sys2Proof.Machine
end

