-- ==== Sys2Proof/Machine/Cargo.lean ====
section
/-! DEFINITION. Device identity, attestation, trusted publishers and cargo (R382 to R393). -/

namespace Sys2Proof.Machine

/-- The device public key: PK.seed followed by PK.root (R382). -/
def publicKey (s : State) : Bytes := slice s.fuses.seeds 32 16 ++ slice (Config.slhDsaRoot s.fuses.seeds) 0 16

/-- A trusted-publisher entry (R387). -/
def publisherKey (s : State) (i : Nat) : Bytes := odGetBytes s (od 0x5100 (1 + i))

/-- Pages of an entry that are matched (OD 51ee.04). -/
def CargoEntry.matchedPages (e : CargoEntry) : Nat := (e.matched.filter (·.2)).length

/-- A cargo record of the attestation report (Table 15.2). -/
def cargoRecord (e : Nat) (c : CargoEntry) : Bytes :=
  leBytes c.base 8 ++ slice c.root 0 32 ++ [BitVec.ofNat 8 e, BitVec.ofNat 8 c.state, BitVec.ofNat 8 c.publisher] ++ zeroBytes 5

/-- Base of a firmware slot in flash (Table 15.8): 0 A, 1 B. -/
def flashSlot (slot : Nat) : Nat := if slot = 0 then 0x100000 else 0x900000

/-- What a byte of flash that nothing has programmed reads as: an erased NOR cell (log entry 34). -/
def flashErased : Byte := 0xFF

/-- n bytes of flash. -/
def flashBytes (s : State) (a n : Nat) : Bytes := Memory.read s.flash flashErased a n

/-- Are the header fields of a firmware image as R395 states? -/
def headerValid (h : Bytes) : Bool :=
  field h 0 4 = 0x01463947 && field h 4 1 = 1 && field h 5 1 ≤ 63 && field h 10 2 = 0 && field h 16 4 ≤ 8371872
    && field h 68 444 = 0

/-- Header of a slot's image. -/
def slotHeader (s : State) (slot : Nat) : Bytes := flashBytes s (flashSlot slot) 512

/-- A slot's firmware version, 0 where it has no valid header (OD 5200.04, OD 5200.05). -/
def slotVersion (s : State) (slot : Nat) : Nat :=
  let h := slotHeader s slot
  if headerValid h then field h 12 4 else 0

/-- Header and body of a slot's image. -/
def slotImage (s : State) (slot : Nat) : Bytes := flashBytes s (flashSlot slot) (512 + field (slotHeader s slot) 16 4)

/-- A slot's measurement, empty where it has no valid header (OD 5200.08, OD 5200.09). -/
def slotMeasurement (s : State) (slot : Nat) : Bytes :=
  if headerValid (slotHeader s slot) then sha256 (slotImage s slot) else []

/-- The snapshot of Table 15.2 up to its signature. -/
def attestationBody (s : State) (nonce : Bytes) : Bytes :=
  let live := (s.cargo.entries.filter fun e => e.2.live).take 64
  let active := odGet s (od 0x5200 1)
  let hashes := (countFrom 0 8).flatMap fun k =>
    if bitAt (odGet s (od 0x2000 2)) k then Memory.read (getLeg s k).img 0 32 32 else zeroBytes 32
  leBytes 0x01413947 4 ++ leBytes (24576 + 48 * live.length) 4 ++ slice nonce 0 32 ++ leBytes s.fuses.serial.toNat 8
    ++ [BitVec.ofNat 8 (deviceState s), BitVec.ofNat 8 active, BitVec.ofNat 8 (odGet s (od 0x5200 2)), s.fuses.floor]
    ++ leBytes (odGet s (od 0x5200 3)) 4 ++ leBytes (now s) 8
    ++ leBytes (stageNumber s) 8
    ++ slice (slotMeasurement s active) 0 32
    ++ sha256 ((countFrom 0 16).flatMap fun i => slice (publisherKey s i) 0 32)
    ++ [BitVec.ofNat 8 (odGet s (od 0x2000 2)), BitVec.ofNat 8 live.length] ++ zeroBytes 6 ++ hashes
    ++ live.flatMap fun e => cargoRecord e.1 e.2

/-- The signed report (R384, Table 15.2). -/
def attestationReport (s : State) (nonce : Bytes) : Bytes :=
  let b := attestationBody s nonce
  b ++ slice (Config.slhDsaSign s.fuses.seeds b) 0 7856 ++ s.fuses.certificateBytes

/-- Effect of a nonce write (R384): the snapshot is taken as the write is served. -/
def takeNonce (s : State) (nonce : Bytes) : State :=
  odSet { s with cargo := { s.cargo with attesting := some (attestationReport s nonce) } } (od 0x5010 3) 1

/-- ATTESTATION_DONE (R384). -/
def execAttestationDone (s : State) : Host.Outcome State Fault Refusal :=
  .next (match s.cargo.attesting with
    | none => s
    | some r =>
      let s := { s with cargo := { s.cargo with attesting := none, report := r } }
      odAdd (odSet s (od 0x5010 3) 2) (od 0x5010 4) 1)

/-- One level of the tree of R386. -/
def merkleLevel : List Bytes → List Bytes
  | a :: b :: r => sha256 ([1] ++ a ++ b) :: merkleLevel r
  | l => l

/-- The Merkle root from the leaves (R386), in at most `fuel` levels. -/
def merkleRoot : Nat → List Bytes → Bytes
  | 0, l => l.headD []
  | fuel + 1, l => match l with
    | [a] => a
    | _ => merkleRoot fuel (merkleLevel l)

/-- Fields of a cargo header (Table 15.4). -/
structure CargoHeader where
  keyHash : Bytes
  content : Nat
  pages : Nat
  length : Nat
  segments : Nat
  root : Bytes
  ok : Bool
  deriving DecidableEq, Repr

/-- Read a cargo header; `ok` says that its fields are as Table 15.4 states. -/
def readCargoHeader (b : Bytes) : CargoHeader :=
  let p := field b 52 4
  let len := field b 56 8
  let n := field b 64 2
  { keyHash := slice b 8 32, content := field b 40 8, pages := p, length := len, segments := n, root := slice b 72 32
    ok := field b 0 4 = 0x41433947 && field b 4 1 = 1 && field b 5 3 = 0 && 1 ≤ p && p ≤ 16777216
      && 65536 * (p - 1) < len && len ≤ 65536 * p && 1 ≤ n && n ≤ 1024 && field b 66 6 = 0 && field b 104 152 = 0 }

/-- Is a segment an allowed destination among the others (R388, check 0x07)? -/
def segmentAllowed (s : State) (all : List (Nat × Nat)) (i : Nat) : Bool :=
  let (d, n) := all.getD i (0, 0)
  let len := 65536 * n
  let meets (x : Nat × Nat) : Bool := d < x.1 + 65536 * x.2 && x.1 < d + len
  let others := (countFrom 0 all.length).filter fun j => j ≠ i
  d % 65536 = 0 && mappedRange s d len && !touchesGreen s d len && !(others.any fun j => meets (all.getD j (0, 0)))
    && !(s.cargo.entries.any fun e => (e.2.state = cargoOpenState || e.2.state = cargoVerified) && e.2.segments.any meets)

/-- The trusted publisher whose key has a hash (R387). -/
def publisherOf (s : State) (hash : Bytes) : Option Nat :=
  (countFrom 0 16).find? fun i => (publisherKey s i).length = 32 && sha256 (publisherKey s i) = hash

/-- A command that ends with a status and changes nothing. -/
def CargoRun.fails (status detail : Nat) : CargoRun := ⟨status, detail, none, [], none⟩

/-- The lowest free entry. -/
def freeEntry (s : State) : Option Nat := (countFrom 0 64).find? fun e => !(getCargo s e).live

/-- An uncorrectable read by a cargo command: recorded; the command ends with 0x09. -/
def cargoBadLine (s : State) (line detail : Nat) : State × CargoRun :=
  (uncorrectable s (readFrame s line) (lineBad s line) false, .fails 0x09 detail)

/-- Checks of an open beyond its header, in R388's order. -/
def openChecks (s : State) (h : CargoHeader) (header signature manifest : Bytes) (leaves : List Bytes) : CargoRun :=
  let segs := segments h.segments manifest
  match publisherOf s h.keyHash with
  | none => .fails 0x03 0
  | some k =>
    if merkleRoot 25 leaves ≠ h.root then .fails 0x05 k
    else if !Config.slhDsaVerify .sha2_128s (publisherKey s k) header signature then .fails 0x04 k
    else match (countFrom 0 h.segments).find? fun i => !segmentAllowed s segs i with
      | some i => .fails 0x07 i
      | none => match freeEntry s with
        | none => .fails 0x08 k
        | some e =>
          let x : CargoEntry := { state := cargoOpenState, base := (segs.getD 0 (0, 0)).1, pages := h.pages
                                  manifest := manifest, leaves := leaves, matched := [], root := h.root
                                  content := BitVec.ofNat 64 h.content, publisher := k, damaged := 0xFFFFFFFF }
          ⟨0x00, e, some (e, x), [], none⟩

/-- Cargo command 1 (R388). A staged range that is not mapped ends it with 0x02 (log entry 35). -/
def openCargo (s : State) : State × CargoRun :=
  let a := odGet s (od 0x5120 1)
  if !mappedRange s a 24576 then (s, .fails 0x02 0)
  else match firstBad s a 256 with
  | some l => cargoBadLine s l 0
  | none =>
    let header := readExt s a 256
    let h := readCargoHeader header
    let n := 24576 + 32 * h.pages
    if !h.ok || !mappedRange s a n then (s, .fails 0x02 0)
    else match ([(a, 8112), (a + 8192, 16 * h.segments), (a + 24576, 32 * h.pages)] : List (Nat × Nat)).findSome? fun x =>
      firstBad s x.1 x.2 with
    | some l => cargoBadLine s l 0
    | none =>
      let manifest := readExt s (a + 8192) (16 * h.segments)
      let segs := segments h.segments manifest
      if (segs.foldl (fun t x => t + x.2) 0) ≠ h.pages || segs.any fun x => x.2 = 0 then (s, .fails 0x02 0)
      else
        let leaves := (countFrom 0 h.pages).map fun i => readExt s (a + 24576 + 32 * i) 32
        (s, openChecks s h header (readExt s (a + 256) 7856) manifest leaves)

/-- Destination of page k of an entry (R385). -/
def pageAddress : List (Nat × Nat) → Nat → Nat
  | [], _ => 0
  | (d, n) :: r, k => if k < n then d + 65536 * k else pageAddress r (k - n)

/-- One page of a pages command (R390): the state, the status, and whether it matches. -/
def cargoPage (s : State) (e k : Nat) (source : Option Nat) : State × Nat × Bool :=
  let x := getCargo s e
  let dest := pageAddress x.segments k
  let from' := source.getD dest
  if !mappedRange s from' 65536 then (s, 0x02, false)
  else match firstBad s from' 65536 with
  | some l => (uncorrectable s (readFrame s l) (lineBad s l) false, 0x09, false)
  | none =>
    let b := readExt s from' 65536
    let s := noteLinesAt s from' 1024 false
    let s := if source.isSome then noteLinesAt (extWrite s dest b) dest 1024 false else s
    if sha256 (0 :: b) = x.leaves.getD k [] then (s, 0x00, true) else (s, 0x06, false)

/-- The pages k to k + m - 1 in turn, up to the first that fails. -/
def cargoPages (e : Nat) (source : Option Nat) : Nat → Nat → State → List (Nat × Nat × Bool) → State × CargoRun
  | 0, _, s, l => (s, ⟨0x00, e, none, l, none⟩)
  | m + 1, k, s, l =>
    match cargoPage s e k source with
    | (s, 0x00, _) => cargoPages e (source.map (· + 65536)) m (k + 1) s (l ++ [(e, k, true)])
    | (s, 0x06, _) => (s, ⟨0x06, k, none, l ++ [(e, k, false)], none⟩)
    | (s, st, _) => (s, ⟨st, k, none, l, none⟩)

/-- Cargo commands 2 and 3 (R390). The detail of a command that ends with 0x00 is the entry (log entry 35). -/
def pagesCargo (s : State) (copy : Bool) : State × CargoRun :=
  let e := odGet s (od 0x5120 3)
  let k := odGet s (od 0x5120 4)
  let m := odGet s (od 0x5120 5)
  let x := getCargo s e
  if !x.live || m = 0 || x.pages < k + m then (s, .fails 0x02 0)
  else cargoPages e (if copy then some (odGet s (od 0x5120 6)) else none) m k s []

/-- Does a resident slot's weight pointer or an armed switch name an address (R393)? -/
def baseReferenced (s : State) (a : Nat) : Bool :=
  (countFrom 0 8).any (fun k => bitAt (odGet s (od 0x2000 2)) k
      && (countFrom 0 8).any fun p => odGet s (od (0x2010 + k) (0x10 + p)) = a)
    || (match s.ctx.arm with
      | some w => w.base = a
      | none => false)

/-- Cargo command 5 (R393). -/
def releaseCargo (s : State) : CargoRun :=
  let e := odGet s (od 0x5120 3)
  let x := getCargo s e
  if x.live && baseReferenced s x.base then .fails 0x0A e else ⟨0x00, e, none, [], some e⟩

/-- A cargo command starts: status 0x01 at once (R388). -/
def startCargo (s : State) (r : CargoRun) : State :=
  odSet { s with cargo := { s.cargo with running := some r } } (od 0x5120 7) 0x01

/-- Effect of writing a command to OD 5120.02. -/
def cargoCommand (s : State) (c : Nat) : State :=
  let (s, r) := match c with
    | 1 => openCargo s
    | 2 => pagesCargo s true
    | 3 => pagesCargo s false
    | _ => (s, releaseCargo s)
  startCargo s r

/-- A page of an entry is marked (R390, R391). -/
def CargoEntry.mark (x : CargoEntry) (k : Nat) (ok : Bool) : CargoEntry :=
  let x := { x with matched := Table.put x.matched false k ok }
  if ok then
    if x.matchedPages = x.pages then { x with state := cargoVerified, damaged := 0xFFFFFFFF } else x
  else if x.state = cargoVerified || x.state = cargoDamaged then
    { x with state := cargoDamaged, damaged := min x.damaged k }
  else x

/-- A cargo command ends: its changes to the entries, then its status and detail (R388). -/
def endCargo (s : State) (r : CargoRun) : State :=
  let s := { s with cargo := { s.cargo with running := none } }
  let s := match r.opened with
    | some (e, x) => setCargo s e x
    | none => s
  let s := r.judged.foldl (fun s j =>
    let x := getCargo s j.1
    if x.live then setCargo s j.1 (x.mark j.2.1 j.2.2) else s) s
  let s := match r.freed with
    | some e => setCargo s e CargoEntry.reset
    | none => s
  odSet (odSet s (od 0x5120 7) r.status) (od 0x5120 8) r.detail

/-- CARGO_COMMAND_END (R388). -/
def execCargoCommandEnd (s : State) : Host.Outcome State Fault Refusal :=
  .next (match s.cargo.running with
    | some r => endCargo s r
    | none => s)

end Sys2Proof.Machine
end

