-- ==== Sys2Proof/Machine/Firmware.lean ====
section
/-! DEFINITION. Firmware: the boot control block, verification, the boot ROM and the firmware commands (R394 to R400). -/

namespace Sys2Proof.Machine

/-- Write flash as it programs: a cell's bits only fall (log entry 34). -/
def programFlash (s : State) (a : Nat) (b : Bytes) : State :=
  let old := flashBytes s a b.length
  { s with flash := Memory.write s.flash flashErased a (List.zipWith (· &&& ·) old b) }

/-- Erase n bytes of flash. -/
def eraseFlash (s : State) (a n : Nat) : State :=
  { s with flash := s.flash.filter fun c => c.1 < a || a + n ≤ c.1 }

/-- A boot control block (R394). -/
structure BootBlock where
  preferred : Nat
  trial : Bool
  count : Nat
  deriving DecidableEq, Repr

/-- Copy i of the boot control block, none where its magic or its CRC is wrong. -/
def bootCopy (s : State) (i : Nat) : Option BootBlock :=
  let b := flashBytes s (0x8000 * i) 16
  if field b 0 4 = 0x01423947 && field b 12 4 = (crc32 (b.take 12)).toNat then
    some ⟨field b 4 1 % 2, field b 5 1 = 1, field b 8 4⟩
  else none

/-- The copy that the device reads: the higher count with a good CRC (R394). -/
def bootCopyInForce (s : State) : Option (Nat × BootBlock) :=
  match bootCopy s 0, bootCopy s 1 with
  | some x, some y => if x.count < y.count then some (1, y) else some (0, x)
  | some x, none => some (0, x)
  | none, some y => some (1, y)
  | none, none => none

/-- The boot control block in force. With no good copy the model takes slot A preferred, no trial (log entry 34). -/
def bootBlock (s : State) : BootBlock := match bootCopyInForce s with
  | some x => x.2
  | none => ⟨0, false, 0⟩

/-- Write a boot control block with the next count into the copy with the older count (R394). -/
def writeBootBlock (s : State) (preferred : Nat) (trial : Bool) : State :=
  let b := bootBlock s
  let i := match bootCopyInForce s with
    | some (0, _) => 1
    | _ => 0
  let bytes := leBytes 0x01423947 4 ++ [BitVec.ofNat 8 preferred, BitVec.ofNat 8 (flag trial), 0, 0]
    ++ leBytes (b.count + 1) 4
  programFlash (eraseFlash s (0x8000 * i) 0x8000) (0x8000 * i) (bytes ++ leBytes (crc32 bytes).toNat 4)

/-- verify() of R396, as a status of Table 15.5: 0x00 where the slot verifies. A signer other than the fused root counts as
an invalid signature (log entry 34). -/
def verifySlot (s : State) (slot : Nat) : Nat :=
  let h := slotHeader s slot
  let image := slotImage s slot
  let key := slice h 20 48
  if !headerValid h then 0x02
  else if sha256 key ≠ s.fuses.rootKeyHash then 0x04
  else if field h 5 1 < s.fuses.floor.toNat then 0x0B
  else if Config.slhDsaVerify .sha2_192s key image (flashBytes s (flashSlot slot + image.length) 16224) then 0x00
  else 0x04

/-- A slot runs with a boot reason (R396, R400): the firmware objects and the compatibility range are the image's. -/
def runSlot (s : State) (slot reason : Nat) : State :=
  let h := slotHeader s slot
  let s := odSet (odSet s (od 0x5200 1) slot) (od 0x5200 2) reason
  let s := odSet (odSet s (od 0x5200 3) (field h 12 4)) (od 0x5200 7) (if reason = 2 then 1 else 0)
  let s := (countFrom 0 4).foldl (fun s i => odSet s (od 0x5300 (1 + i)) (field h (6 + i) 1)) s
  { s with boot := { s.boot with runningFirmware := true } }

/-- The boot ROM (R396): it runs the first slot that verifies, or stays in BOOT. -/
def bootRom (s : State) : State :=
  let b := bootBlock s
  let other := 1 - b.preferred
  let (first, second) := if b.trial then (other, b.preferred) else (b.preferred, other)
  let s := if b.trial then writeBootBlock s b.preferred false else s
  if verifySlot s first = 0 then runSlot s first (if b.trial then 2 else 0)
  else if verifySlot s second = 0 then runSlot s second 1
  else s

/-- The slot that the firmware commands act on (R398). -/
def inactiveSlot (s : State) : Nat := 1 - odGet s (od 0x5200 1) % 2

/-- Program bytes of the inactive slot at an offset and read them back: 0x0D where they differ (R398). -/
def programSlot (s : State) (o : Nat) (b : Bytes) : State × Nat :=
  let a := flashSlot (inactiveSlot s) + o
  let s := programFlash { s with cargo := { s.cargo with verifiedSince := false } } a b
  (s, if flashBytes s a b.length = b then 0x00 else 0x0D)

/-- Effect of a chunk (R398): it is programmed at the chunk offset, which its length advances. -/
def takeChunk (s : State) (b : Bytes) : State :=
  let o := odGet s (od 0x5200 0x10)
  let (s, st) := programSlot s o b
  odSet (odSet s (od 0x5200 0x10) (o + b.length)) (od 0x5200 0x15) st

/-- Command 1 (R398). -/
def programImage (s : State) : State × Nat :=
  let a := odGet s (od 0x5200 0x12)
  let n := odGet s (od 0x5200 0x13)
  if n = 0 || 0x800000 < n || !mappedRange s a n then (s, 0x02)
  else match firstBad s a n with
    | some l => (uncorrectable s (readFrame s l) (lineBad s l) false, 0x09)
    | none => programSlot s 0 (readExt s a n)

/-- Command 2 (R398). -/
def verifyInactive (s : State) : State × Nat :=
  let st := verifySlot s (inactiveSlot s)
  ({ s with cargo := { s.cargo with verifiedSince := decide (st = 0) } }, st)

/-- Command 3 (R398): allowed only after a successful verify. -/
def trialInactive (s : State) : State × Nat := (writeBootBlock s (bootBlock s).preferred true, 0x00)

/-- Command 4 (R398): the active slot is preferred; a trial that ran is committed. -/
def commitActive (s : State) : State × Nat :=
  (odSet (writeBootBlock s (odGet s (od 0x5200 1)) false) (od 0x5200 7) 0, 0x00)

/-- Command 5 (R398): the floor never falls; refused with 0x0C during a trial. -/
def raiseFloor (s : State) : State × Nat :=
  if odGet s (od 0x5200 7) = 1 then (s, 0x0C)
  else
    let v := field (slotHeader s (odGet s (od 0x5200 1))) 5 1
    ({ s with fuses := { s.fuses with floor := BitVec.ofNat 8 (max s.fuses.floor.toNat v) } }, 0x00)

/-- Command 6 (R398). -/
def eraseInactive (s : State) : State × Nat :=
  (eraseFlash { s with cargo := { s.cargo with verifiedSince := false } } (flashSlot (inactiveSlot s)) 0x800000, 0x00)

/-- Effect of writing a command to OD 5200.14: it runs with status 0x01 until FIRMWARE_COMMAND_END. -/
def firmwareCommand (s : State) (c : Nat) : State :=
  let (s, st) := match c with
    | 1 => programImage s
    | 2 => verifyInactive s
    | 3 => trialInactive s
    | 4 => commitActive s
    | 5 => raiseFloor s
    | _ => eraseInactive s
  odSet { s with cargo := { s.cargo with firmware := some st } } (od 0x5200 0x15) 0x01

/-- FIRMWARE_COMMAND_END (R398). -/
def execFirmwareCommandEnd (s : State) : Host.Outcome State Fault Refusal :=
  .next (match s.cargo.firmware with
    | some st => odSet { s with cargo := { s.cargo with firmware := none } } (od 0x5200 0x15) st
    | none => s)

end Sys2Proof.Machine
end

