-- ==== Sys2Proof/Machine/Dynamic.lean ====
section
/-! DEFINITION. What dynamic bales of kinds 0x02, 0x04, 0x05 and 0x06 carry, the fabric copy, and the end of an old
routing epoch (R192, R264, R292, R294, R346). -/

namespace Sys2Proof.Machine

/-- ACKNOWLEDGEMENT_ONLY (R294): the header's acknowledged number, and the echo. -/
def execAcknowledgementOnly (_link : LinkId) (source : BitVec 20) (echo : Bool) (header : BitVec 64) (s : State) :
    Host.Outcome State Fault Refusal :=
  .next (noteCopyDone (takeAck s source.toNat (bits header.toNat 47 32) echo))

/-- A destination that has sent nothing for 256 ticks acknowledges by kind 0x02 (R294, Table 11.7). Such a bale takes no
number of its own. -/
def sendAckOnly (s : State) (src : Nat) : State :=
  let w := getWindow s src
  match w.ackDue with
  | none => s
  | some t =>
    if now s < t then s
    else
      let bale := makeBale (dynamicHeader (epochBit s) src (logicalAddress s) false w.echoDue 0x02)
        (dynamicPayload w.nextSeq.toNat (w.expect - 1).toNat 1 0 [0])
      let s := setWindow s src { w with ackDue := none, echoDue := false }
      match routeBale s fromSteward bale with
      | (s, _) => s

/-- ACK_ONLY_TIMER (R294). -/
def execAckOnlyTimer (source : BitVec 20) (s : State) : Host.Outcome State Fault Refusal := .next (sendAckOnly s source.toNat)

/-- COMPLETION (R264): the requester that the tag names takes the status. -/
def execCompletion (_source : BitVec 20) (tag : BitVec 24) (status : Byte) (s : State) :
    Host.Outcome State Fault Refusal :=
  .next (if status = 0 then s else transferFailed s tag.toNat status.toNat)

/-- The bales of a page that have been written, as a mask, with one more: one that has been written before begins the page anew. -/
def pageMask (mask bale : Nat) : Nat := if bitAt mask bale then 2 ^ bale else mask + 2 ^ bale

/-- A page-copy bale arrives for engine g (R192, R195): it is written, or its page is refused with status 0x05; the page counts once
all of its bales have been written, in whatever order they come. -/
def writePageBale (s : State) (g source tag address : Nat) (b : Bytes) : State :=
  let page := address / 65536
  if address % 128 ≠ 0 || pageRefused s g (65536 * page) 65536 || odGet s (od (engineIndex g) 2) ≠ 1 then
    refuseTransfer s source tag 0x05
  else
    let s := noteDynamicLines (extWrite s address b) g 2
    let e := getEngine s g
    let mask := pageMask (Table.look e.incoming 0 page) (address % 65536 / 128)
    let whole := mask = 2 ^ 512 - 1
    let s := setEngine s g { e with incoming := Table.put e.incoming 0 page (if whole then 0 else mask) }
    if whole then odAdd s (od (engineIndex g) 0x12) 1 else s

/-- May no access reach a range now: a plan request waits at one of its interfaces, a die of theirs does not run, or an earlier access
that shares an interface waits (R161, R464)? -/
def accessWaits (s : State) (earlier : List MemAccess) (l : List Nat) : Bool :=
  l.any fun i => planWaits s i || !memoryRuns s i || earlier.any fun x => (x.ifaces s).contains i

/-- Does a range lie in an LPDDR5X interleaved window (Table 6.6)? -/
def inLpWindow (s : State) (a n : Nat) : Bool :=
  0x10000000000 ≤ a && a + n ≤ 0x18000000000 && mappedRange s a n

/-- Does a range touch the waystation area (R337)? -/
def touchesWaystations (s : State) (a n : Nat) : Bool :=
  odGet s (od 0x2000 2) ≠ 0 && rangesOverlap a n (odGet s (od 0x5810 1)) 0x10000000

/-- A fabric-copy bale arrives (R346): applied within its windows, or refused. The completion of a refused bale has
status 0x02 (log entry 29). -/
def writeCopyBale (s : State) (source tag address : Nat) (b : Bytes) : State :=
  if address % 128 = 0 && inLpWindow s address 128 && !touchesWaystations s address 128 && !touchesGreen s address 128
      && (sealedAt s address 128).isNone then
    noteLinesAt (extWrite s address b) address 2 false
  else refuseTransfer s source tag 0x02

/-- Does a range lie in this device's LPDDR5X: an interleaved window of it or a local one (Table 6.2)? -/
def inLpMemory (s : State) (a n : Nat) : Bool :=
  addressable s a n && ((0x10000000000 ≤ a && a + n ≤ 0x18000000000) || (0x30000000000 ≤ a && a + n ≤ 0x38000000000))

/-- Are the values of a fabric copy allowed (R346)? -/
def copyAllowed (s : State) : Bool :=
  let src := odGet s (od 0x5880 1)
  let len := odGet s (od 0x5880 2)
  src % 128 = 0 && len % 128 = 0 && odGet s (od 0x5880 4) % 128 = 0 && len ≤ 2 ^ 30
    && inLpMemory s src (max len 1)

/-- One bale of a fabric copy: 8 bytes of destination address and 128 of data. A source line that is uncorrectable is
never data: its bale is not sent and the copy ends as one that was refused (log entry 29). -/
def copyBale (tag : Nat) (s : State) (i : Nat) : State :=
  let src := odGet s (od 0x5880 1) + 128 * i
  match firstBad s src 128 with
  | some line => endCopy (uncorrectable s (readFrame s line) (lineBad s line) false) 0x02
  | none =>
    sendDynamic s (odGet s (od 0x5880 3)) 0x04 tag (leBytes (odGet s (od 0x5880 4) + 128 * i) 8 ++ readExt s src 128)

/-- The fabric copy starts (R346). -/
def startCopy (s : State) : State :=
  let dev := odGet s (od 0x5880 3)
  let (s, tag) := newTag s fromHost
  let s := odSet { s with host := { s.host with copyTo := some dev, copyTag := tag } } (od 0x5880 6) 0x01
  noteCopyDone ((countFrom 0 (odGet s (od 0x5880 2) / 128)).foldl (copyBale tag) s)

/-- The bales of the old epoch that a list holds, and the others. -/
def splitEpoch (s : State) (l : List (BitVec 1280)) : List (BitVec 1280) × List (BitVec 1280) :=
  l.partition fun b => hEpoch (baleHeader b) ≠ epochBit s

/-- 131,072 ticks after a switch the old table goes, with every bale of its epoch (R292). -/
def expireEpoch (s : State) : State :=
  if s.fabric.old.isEmpty || now s < odGet s (od 0x3900 5) then s
  else
    let s := { s with fabric := { s.fabric with old := [] } }
    (countFrom 0 48).foldl (fun s l =>
      let k := getLink s l
      let old (x : Nat × BitVec 1280) : Bool := hEpoch (baleHeader x.2) ≠ epochBit s
      let (outAgain, keepAgain) := splitEpoch s k.again
      let out := outAgain ++ (k.dynamic.filter old).map (·.2)
      let keep := k.dynamic.filter fun x => !old x
      let (outHeld, keepHeld) := splitEpoch s k.held
      let s := noteHeld (setLink s l { k with again := keepAgain, dynamic := keep, held := keepHeld }) l
      (outHeld ++ out).foldl (fun s b => completeDropped s b 0x14) s) s

/-- OLD_EPOCH_EXPIRE (R292). -/
def execOldEpochExpire (s : State) : Host.Outcome State Fault Refusal := .next (expireEpoch s)

end Sys2Proof.Machine
end

