-- ==== Sys2Proof/Machine/Host.lean ====
section
/-! DEFINITION. The host interface: intake points, the replay log, host accesses through the BARs and the decoders, resets
and training of the host port, and coalesced interrupts (R331 to R345, R353, R354, R432, R433, R451). -/

namespace Sys2Proof.Machine

/-- Cursor from which the next point on a waystation reads: the intake record's, else the waystation's (R340). -/
def recordCursorOf (s : State) (w : Nat) : Nat := Table.look s.host.recordCursor (odGet s (od (wsIndex w) 2)) w

/-- Set the intake record's cursor of a waystation. -/
def setRecordCursor (s : State) (w v : Nat) : State :=
  { s with host := { s.host with
    recordCursor := Table.put s.host.recordCursor (odGet s (od (wsIndex w) 2)) w (v % 2 ^ 32) } }

/-- Address of the slot header and of the payload of sequence number q (R337). -/
def headerAt (s : State) (w q : Nat) : Nat := wsBase s w + 64 * (q % 1024)
def payloadAt (s : State) (w q : Nat) : Nat := wsBase s w + 0x10000 + 4096 * (q % 1024)

/-- Is a header posted under sequence number q (R338)? -/
def postedAs (header q : Nat) : Bool := bitAt header 31 && bits header 63 32 = q % 2 ^ 32

/-- The longest run of posted headers from sequence number q, at most n: an uncorrectable header counts as not posted and
is recorded (R340). -/
def takeHeaders (s : State) (w q : Nat) : Nat → State × List (BitVec 512)
  | 0 => (s, [])
  | n + 1 =>
    let a := headerAt s w q
    if lineBad s a ≠ 0 then (uncorrectable s (readFrame s a) (lineBad s a) false, [])
    else
      let h := leNat (readExtLine s a)
      if postedAs h q then
        let (s, r) := takeHeaders s w (q + 1) n
        (s, BitVec.ofNat 512 h :: r)
      else (s, [])

/-- Payload bytes of an inbound header, padded to whole lines (Tables 13.3, 13.7). -/
def paddedPayload (h : Nat) : Nat := (min (bits h 15 0) 4096 + 63) / 64 * 64

/-- Length of a log record of the headers (Table 13.7). -/
def logLength (headers : List (BitVec 512)) : Nat := headers.foldl (fun n h => n + 64 + paddedPayload h.toNat) 64

/-- Lines of a log record as (source address if it is memory, bytes): its header, then each slot's header and payload; the
padding of a payload's last line is zero (R353). -/
def logLines (s : State) (p : IntakePoint) (q : Nat) (headers : List (BitVec 512)) : List (Option Nat × Bytes) :=
  let head := leBytes (stageNumber s) 8 ++ leBytes (s.stage.start + p.offset) 8
    ++ [BitVec.ofNat 8 p.number, BitVec.ofNat 8 p.ws, BitVec.ofNat 8 headers.length, 0] ++ leBytes q 4
    ++ leBytes (logLength headers) 8 ++ zeroBytes 32
  let slots := (headers.zip (countFrom q headers.length)).flatMap fun hq =>
    let len := min (bits hq.1.toNat 15 0) 4096
    let body := (countFrom 0 (paddedPayload hq.1.toNat / 64)).map fun i =>
      let a := payloadAt s p.ws hq.2 + 64 * i
      (some a, slice (readExt s a (min 64 (len - 64 * i))) 0 64)
    (none, leBytes hq.1.toNat 64) :: body
  (none, head) :: slots

/-- Address in the log of offset o: in mode 2 the log wraps (R353). -/
def logAddress (s : State) (o : Nat) : Nat :=
  let size := odGet s (od 0x5850 3)
  odGet s (od 0x5850 2) + (if size = 0 then o else o % size)

/-- Write the lines of a record from offset o. A line whose source is uncorrectable is recorded and is uncorrectable in the
log (log entry 32). -/
def writeLog (s : State) (o : Nat) : List (Option Nat × Bytes) → State
  | [] => s
  | (src, b) :: r =>
    let a := logAddress s o
    let bad : BitVec 32 := match src with
      | some x => lineBad s x
      | none => 0
    let s := match src with
      | some x => if bad = 0 then s else uncorrectable s (readFrame s x) bad false
      | none => s
    let s := stewardWrite s a b
    let s := if bad = 0 then s else setBad s (a + 32 * flag ((src.map fun x => Table.look s.ext.badHalf false (readFrame s x / 64)).getD false)) bad
    writeLog s (o + 64) r

/-- Oldest records leave the log until n more bytes fit (R353): at most `fuel` of them. -/
def freeLog (n : Nat) : Nat → State → State
  | 0, s => s
  | fuel + 1, s =>
    let staged := s.host.staged.foldl (fun t b => t + b.length) 0
    if s.host.logUsed = 0 || s.host.logUsed + staged + n ≤ odGet s (od 0x5850 3) then s
    else
      let len := extWord s (logAddress s (s.host.logTail + 24)) 8
      let len := if len = 0 then s.host.logUsed else min len s.host.logUsed
      freeLog n fuel { s with host := { s.host with logTail := s.host.logTail + len, logUsed := s.host.logUsed - len } }

/-- A first-run point that took slots writes its record past the log head (R353). -/
def recordPoint (s : State) (p : IntakePoint) (q : Nat) (headers : List (BitVec 512)) : State :=
  let mode := odGet s (od 0x5850 1)
  if (mode ≠ 1 && mode ≠ 2) || odGet s (od 0x5850 6) ≠ 1 || headers.isEmpty then s
  else
    let lines := logLines s p q headers
    let n := 64 * lines.length
    let s := if mode = 2 then freeLog n s.host.logUsed s else s
    let staged := s.host.staged.foldl (fun t b => t + b.length) 0
    if mode = 1 && odGet s (od 0x5850 3) < s.host.logUsed + staged + n then raiseSource (odSet s (od 0x5850 6) 2) 4
    else
      let s := writeLog s (odGet s (od 0x5850 4) + staged) lines
      { s with host := { s.host with
        staged := s.host.staged ++ [lines.flatMap (·.2)]
        copying := Table.put s.host.copying [] p.ws (Table.look s.host.copying [] p.ws ++ [q]) } }

/-- The next record of the log that replays: its bytes, none where a line of it is uncorrectable. -/
def nextRecord (s : State) : Option Bytes :=
  let o := s.host.logTail + s.host.replayed
  let line (i : Nat) : Nat := logAddress s (o + 64 * i)
  if lineBad s (line 0) ≠ 0 then none
  else
    let n := min (field (readExtLine s (line 0)) 24 8) (s.host.logUsed - s.host.replayed) / 64
    let lines := (countFrom 0 n).map line
    if lines.any fun a => lineBad s a ≠ 0 then none else some (lines.flatMap (readExtLine s))

/-- How a record stands to a point (R354). -/
inductive LogMatch where
  | here | later | passed
  deriving DecidableEq, Repr

/-- Compare a record with a point of the stage that runs; a point of an outbound waystation takes no slot and has no record. -/
def compareRecord (s : State) (p : IntakePoint) (b : Bytes) : LogMatch :=
  let stage := field b 0 8
  let point := field b 16 1
  if stage = stageNumber s && point = p.number && field b 17 1 = p.ws && wsKind s p.ws ≠ 2 then .here
  else if stageNumber s < stage && stage ≠ 2 ^ 64 - 1 then .later
  else if stage = stageNumber s then
    match ((runningLeg s).intakePoints s.stage.index).find? fun x => x.number = point with
    | none => .passed
    | some x => if p.offset < x.offset || (p.offset = x.offset && p.number < point) then .later else .passed
  else .passed

/-- Write a record's slots into the waystation; the headers it holds (R354). -/
def replaySlots (s : State) (w : Nat) : Nat → Nat → Bytes → State × List (BitVec 512)
  | 0, _, _ => (s, [])
  | n + 1, q, b =>
    let h := field b 0 64
    let len := paddedPayload h
    let s := stewardWrite (stewardWrite s (payloadAt s w q) (slice b 64 len)) (headerAt s w q) (slice b 0 64)
    let (s, r) := replaySlots s w n (q + 1) (b.drop (64 + len))
    (s, BitVec.ofNat 512 h :: r)

/-- Replay has diverged (R354). -/
def diverge (s : State) : State :=
  raiseSource (odSet (odSet s (od 0x5850 6) 4) (od 0x5850 7) (stageNumber s)) 4

/-- A first-run point while the log replays (R354): first sequence number and headers. A record that cannot be read ends
replay as a divergence (log entry 32). -/
def replayPoint (s : State) (p : IntakePoint) : State × Nat × List (BitVec 512) :=
  let q := recordCursorOf s p.ws
  match nextRecord s with
  | none => (diverge s, q, [])
  | some b =>
    match compareRecord s p b with
    | .later => (s, q, [])
    | .passed => (diverge s, q, [])
    | .here =>
      let first := field b 20 4
      let n := field b 18 1
      let (s, headers) := replaySlots s p.ws n first (b.drop 64)
      let s := setRecordCursor s p.ws (first + n)
      let used := s.host.replayed + b.length
      let s := { s with host := { s.host with replayed := used } }
      (if s.host.logUsed ≤ used then odSet s (od 0x5850 6) 0 else s, first, headers)

/-- What a point takes on the first run of a stage, entered in the intake record (R340, R354). -/
def firstPoint (s : State) (p : IntakePoint) : State × IntakeRec :=
  let keep (s : State) (first : Nat) (headers : List (BitVec 512)) (release : Nat) : State × IntakeRec :=
    let r : IntakeRec := { point := p.number, ws := p.ws, first := first, headers := headers
                           hostRelease := BitVec.ofNat 32 release }
    ({ s with host := { s.host with intake := s.host.intake ++ [r] } }, r)
  let replays : Bool := odGet s (od 0x5850 1) = 3 && odGet s (od 0x5850 6) = 3
  if wsKind s p.ws = 2 then
    let h := hostRelease s p.ws
    let s := if replays then (replayPoint s p).1 else s
    keep (odSet s (od (wsIndex p.ws) 4) h) (odGet s (od (wsIndex p.ws) 2)) [] h
  else if replays then
    let (s, first, headers) := replayPoint s p
    keep s first headers 0
  else
    let q := recordCursorOf s p.ws
    let (s, headers) := takeHeaders s p.ws q p.most
    keep (recordPoint (setRecordCursor s p.ws (q + headers.length)) p q headers) q headers 0

/-- The lines of an intake list (R341). -/
def IntakeRec.lines (r : IntakeRec) : Bytes :=
  let head := leBytes r.first 4 ++ [BitVec.ofNat 8 r.headers.length, BitVec.ofNat 8 r.ws, 0, 0]
    ++ leBytes r.hostRelease.toNat 4 ++ [BitVec.ofNat 8 r.point] ++ zeroBytes 51
  head ++ r.headers.flatMap fun h => leBytes h.toNat 64

/-- Ticks after its point at which the first line of a list reaches a core, at most (R341). -/
def listLatency (core : Nat) : Nat := if core < 144 then 600 else 660

/-- Route time at which the rest of the stage begins (R240). -/
def restStart (s : State) : Nat := s.stage.start + s.stage.length - s.stage.rest

/-- Lines of a list of n, one a tick, that reach the core before the rest begins; the others are cut off (R340). DESIGN CHOICE (log
entry 57): the first line takes the longest time that R341 allows, and lines that are in time are written with the point. -/
def linesInTime (s : State) (core n : Nat) : Nat := min n (restStart s - (now s + listLatency core))

/-- The list is written at the reply core, and its waybill bit sets if every line was written (R340, R341). -/
def deliverList (s : State) (p : IntakePoint) (r : IntakeRec) : State :=
  if 288 ≤ p.core then s
  else
    let n := 1 + r.headers.length
    let k := linesInTime s p.core n
    let (s, all) := replyLines s p.core p.address r.lines k
    if all && k = n then setWaybill s p.core p.waybill else s

/-- An intake point (R340). A re-run delivers what the record holds; a point that the first run did not reach takes
nothing. -/
def servePoint (s : State) (p : IntakePoint) : State :=
  let s := { s with host := { s.host with served := p.number :: s.host.served } }
  if s.stage.firstRun then
    let (s, r) := firstPoint s p
    deliverList s p r
  else match s.host.intake.find? fun r => r.point = p.number with
    | some r => deliverList s p r
    | none => deliverList s p { point := p.number, ws := p.ws, first := recordCursorOf s p.ws, headers := [], hostRelease := 0 }

/-- INTAKE_POINT (R340): a point of the stage that runs, once its offset has come; a stage that the device has not started (R24) has
none. -/
def execIntakePoint (point : Fin 16) (s : State) : Host.Outcome State Fault Refusal :=
  .next (match ((runningLeg s).intakePoints s.stage.index).find? fun p => p.number = point.val with
    | none => s
    | some p =>
      if s.stage.phase = .stage && !s.stage.unready && s.stage.start + p.offset ≤ now s && !s.host.served.contains point.val && p.ws < 48
      then servePoint s p else s)

/-- LOG_COPY_DONE (R353): the waystation's oldest log copy is complete, and the releases that waited on it proceed, as far as the
cursor. -/
def execLogCopyDone (ws : WsId) (s : State) : Host.Outcome State Fault Refusal :=
  let w := ws.val
  let s := { s with host := { s.host with copying := Table.put s.host.copying [] w (Table.look s.host.copying [] w).tail } }
  let c := odGet s (od (wsIndex w) 2)
  let free := releasable s w c
  .next (if wsKind s w = 1 && odGet s (od (wsIndex w) 3) ≠ free
    then raiseWaystation (setControl s w free) w else s)

/-- A write of the log mode (OD 5850.01): recording starts an empty log, replay starts at the log's oldest record (log
entry 32). -/
def setLogMode (s : State) (mode : Nat) : State :=
  let old := odGet s (od 0x5850 1)
  let s := odSet s (od 0x5850 1) mode
  if mode = 3 then
    odSet { s with host := { s.host with replayed := 0 } } (od 0x5850 6) (if s.host.logUsed = 0 then 0 else 3)
  else if mode = 0 then odSet s (od 0x5850 6) 0
  else if mode = old then s
  else
    let s := { s with host := { s.host with logTail := 0, logUsed := 0, replayed := 0, staged := [] } }
    odSet (odSet (odSet s (od 0x5850 4) 0) (od 0x5850 5) 0) (od 0x5850 6) 1

/-- Attach mode (OD 5800.01): 0 not trained, 1 CXL, 2 PCIe. -/
def attachMode (s : State) : Nat := odGet s (od 0x5800 1)

/-- Can an access come through the window: the port is trained, and the decoders exist in CXL mode only (Table 13.1)? -/
def windowReachable (w : HostWindow) (s : State) : Bool :=
  match w with
  | .bar0 => attachMode s ≠ 0
  | .bar4 => attachMode s ≠ 0
  | .decoder0 => attachMode s = 1
  | .decoder1 => attachMode s = 1

/-- Device-physical address of n bytes at an offset of a memory window, none where the access is unmapped (R335). -/
def hostTarget (s : State) (w : HostWindow) (o n : Nat) : Option Nat :=
  match w with
  | .bar0 => none
  | .decoder1 =>
    let a := odGet s (od 0x5890 1) + o
    if o + n ≤ odGet s (od 0x5890 2) && inLpWindow s a n && !touchesWaystations s a n then some a else none
  | _ => if o + n ≤ 0x10000000 && odGet s (od 0x2000 2) ≠ 0 then some (odGet s (od 0x5810 1) + o) else none

/-- One part of a host write, inside a line: not applied to green pages and back ranges, nor to a sealed range, which is
counted (R167, R389); a write to a green page or a back range completes with an error status. -/
def hostWriteLine (s : State) (x : Nat × Bytes) : State :=
  if touchesGreen s x.1 x.2.length then emit s .hostWriteError
  else if (sealedAt s x.1 x.2.length).isSome then odAdd s (od 0x5120 0x0A) 1
  else noteLinesAt (extWrite s x.1 x.2) x.1 1 false

/-- A host write into BAR0: the MSI-X table and the component registers hold what is written (log entry 33); the status
page, the pending-bit array and the counter window ignore writes (R334, R433). -/
def bar0Write (s : State) (o : Nat) (b : Bytes) : State :=
  if o + b.length ≤ 0x400 then
    { s with host := { s.host with msixTable := Memory.write s.host.msixTable 0 o b } }
  else if 0x10000 ≤ o && o + b.length ≤ 0x20000 then
    { s with host := { s.host with component := Memory.write s.host.component 0 o b } }
  else s

/-- The host status page (Table 13.2). -/
def statusPage (s : State) : Bytes :=
  leBytes (now s) 8 ++ [BitVec.ofNat 8 (deviceState s)] ++ zeroBytes 7 ++ leBytes s.host.lastFired.toNat 8

/-- The U64 at a 8-byte aligned offset of the counter window (Table 17.8); a page that OD 4800.01 hides reads as zero
(R433). -/
def windowValue (s : State) (x : Nat) : Nat :=
  let page := x / 4096
  if 8 ≤ page || !bitAt (odGet s (od 0x4800 1)) page then 0
  else if x < 0x4800 then counterValue s (x / 8)
  else if 0x5000 ≤ x && x < 0x5100 then counterValue s (0x900 + (x - 0x5000) / 8)
  else if 0x5100 ≤ x && x < 0x5700 then counterValue s (0x920 + (x - 0x5100) / 8)
  else if 0x6000 ≤ x && x < 0x6900 then odGet s (od (0x4900 + (x - 0x6000) / 8) 0x40)
  else if x = 0x7000 then now s
  else if x = 0x7008 then stageNumber s
  else if x = 0x7010 then wrap 64 (odInt s (od 0x4800 0x20))
  else 0

/-- Bytes of a BAR0 read outside the counter window; what Table 13.2 does not list reads as zero (log entry 33). -/
def bar0Byte (s : State) (o : Nat) : Byte :=
  if o < 0x400 then Table.look s.host.msixTable 0 o
  else if 0x2000 ≤ o && o < 0x3000 then (statusPage s).getD (o - 0x2000) 0
  else if 0x10000 ≤ o && o < 0x20000 then Table.look s.host.component 0 o
  else 0

/-- A host read of BAR0. -/
def bar0Read (s : State) (o n : Nat) : State :=
  if 0x40000 < o + n then emit s (.hostData (List.replicate n 0xFF))
  else if o < 0x20000 then emit s (.hostData ((countFrom o n).map (bar0Byte s)))
  else if (n = 4 || n = 8) && o % n = 0 then
    let x := o - 0x20000
    emit s (.hostData (slice (leBytes (windowValue s (x / 8 * 8)) 8) (x % 8) n))
  else emit { s with fresh := s.fresh + n } (.hostData ((countFrom s.fresh n).map Config.windowByte))

/-- A host read of memory (R146): data as any unit reads it, poison over CXL.mem or a completer abort through BAR4 where
a line is uncorrectable, all ones where it is unmapped, as a back range is (R163). -/
def serveHostRead (s : State) (w : HostWindow) (a n : Nat) : State :=
  if touchesBack s a n then emit s (.hostData (List.replicate n 0xFF))
  else
    let s := noteLinesAt s a ((a % 64 + n + 63) / 64) false
    match firstBad s a n with
    | none => emit s (.hostData (readExt s a n))
    | some l => emit (uncorrectable s (readFrame s l) (lineBad s l) false) (if w = .bar4 then .hostAbort else .hostPoison)

/-- A dynamic-class or host access is served. -/
def serveAccess (s : State) : MemAccess → State
  | .hostWrite a b => hostWriteLine s (a, b)
  | .hostRead w a n => serveHostRead s w a n
  | .copyBale source tag a b => writeCopyBale s source tag a b
  | .pageBale g source tag a b => writePageBale s g source tag a b

/-- A dynamic-class or host access reaches its controllers: it is served, or waits behind their plan requests, behind earlier accesses
and while a die of theirs does not run (R161, R464; log entry 60). -/
def takeAccess (s : State) (x : MemAccess) : State :=
  if accessWaits s s.ext.waiting (x.ifaces s) then { s with ext := { s.ext with waiting := s.ext.waiting ++ [x] } }
  else serveAccess s x

/-- The waiting accesses are served in their order, as far as their controllers are free (R161). -/
def serveWaiting (s : State) : State := s.ext.waiting.foldl takeAccess { s with ext := { s.ext with waiting := [] } }

/-- KV_PAGE_COPY_BALE (R192). -/
def execKvPageCopyBale (engine : EngineId) (source : BitVec 20) (tag : BitVec 24) (address : BitVec 48)
    (payload : BitVec 1024) (s : State) : Host.Outcome State Fault Refusal :=
  .next (takeLoop (takeAccess s (.pageBale engine.val source.toNat tag.toNat address.toNat (leBytes payload.toNat 128))) source.toNat)

/-- HOST_TRAFFIC (R346). -/
def execHostTraffic (source : BitVec 20) (tag : BitVec 24) (address : BitVec 64) (payload : BitVec 1024) (s : State) :
    Host.Outcome State Fault Refusal :=
  .next (takeLoop (takeAccess s (.copyBale source.toNat tag.toNat address.toNat (leBytes payload.toNat 128))) source.toNat)

/-- HOST_WRITE (R335). Until firmware runs, writes are dropped (R451). -/
def execHostWrite (window : HostWindow) (offset : Nat) (payload : Bytes) (s : State) :
    Host.Outcome State Fault Refusal :=
  .next (
    if !windowReachable window s then s
    else
      let s := noteEvent s (portCounters 0) 16 0x29 (payload.length / 64) none
      if !s.boot.runningFirmware then s
      else match window with
        | .bar0 => bar0Write s offset payload
        | _ => match hostTarget s window offset payload.length with
          | none => s
          | some a => (splitLines a payload).foldl (fun s x => takeAccess s (.hostWrite x.1 x.2)) s)

/-- A host read of memory through a window: all ones where the window maps nothing (R335). -/
def hostReadMemory (s : State) (w : HostWindow) (o n : Nat) : State :=
  match hostTarget s w o n with
  | none => emit s (.hostData (List.replicate n 0xFF))
  | some a => takeAccess s (.hostRead w a n)

/-- HOST_READ (R146). Until firmware runs, reads return all ones (R451). -/
def execHostRead (window : HostWindow) (offset : Nat) (length : Nat) (s : State) : Host.Outcome State Fault Refusal :=
  .next (
    if !windowReachable window s then s
    else if !s.boot.runningFirmware then emit s (.hostData (List.replicate length 0xFF))
    else match window with
      | .bar0 => bar0Read s offset length
      | _ => hostReadMemory s window offset length)

/-- The effect of R333 on the host port: its own registers and the objects of OD 5808 take their defaults. -/
def resetHostPort (s : State) : State :=
  let s := (countFrom 1 4).foldl (fun s i => odSet s (od 0x5808 i) (objDefault (od 0x5808 i))) s
  { s with host := { s.host with msixTable := [], component := [] } }

/-- The host port has no link. -/
def untrainHost (s : State) : State := odSet (odSet (odSet s (od 0x5800 1) 0) (od 0x5800 2) 0) (od 0x5800 3) 0

/-- HOST_PORT_RESET (R333). A Function Level Reset leaves the link up. -/
def execHostPortReset (kind : HostReset) (s : State) : Host.Outcome State Fault Refusal :=
  .next (
    if attachMode s = 0 then s
    else
      let s := odAdd (resetHostPort s) (od 0x5800 4) 1
      match kind with
      | .flr => s
      | .hot => untrainHost s
      | .linkLoss => untrainHost s)

/-- PERST (R451): low resets the host port with the effect of R333. -/
def execPerst (level : Bool) (s : State) : Host.Outcome State Fault Refusal :=
  let s := { s with pins := { s.pins with perstN := level } }
  .next (if level then s else untrainHost (resetHostPort s))

/-- HOST_PORT_TRAINED (R331, R451): while PERST_N is high and Q0's root PLL is locked. -/
def execHostPortTrained (cxl : Bool) (width rate : BitVec 8) (s : State) : Host.Outcome State Fault Refusal :=
  .next (
    if !s.pins.perstN || !bitAt (odGet s (od 0x2420 1)) 2 then s
    else odSet (odSet (odSet s (od 0x5800 1) (if cxl then 1 else 2)) (od 0x5800 2) width.toNat) (od 0x5800 3) rate.toNat)

/-- INTERRUPT_COALESCE_END (R345): further events of the source within the 1 ms raise one more message. -/
def execInterruptCoalesceEnd (source : Fin 54) (s : State) : Host.Outcome State Fault Refusal :=
  let i := source.val
  let ended := Table.look s.host.windowEnd 0 i
  .next (
    if ended = 0 || now s < ended then s
    else
      let more := Table.look s.host.more false i
      let s := { s with host := { s.host with
        windowEnd := Table.put s.host.windowEnd 0 i 0, more := Table.put s.host.more false i false } }
      if more then sendMsix s (sourceVector s i) else s)

end Sys2Proof.Machine
end

