-- ==== Sys2Proof/Machine/RouteTime.lean ====
section
/-! DEFINITION. Route time: beacons, the discipline loop and its states, the choice of parent, and the survey load (R227
to R236, R459). -/

namespace Sys2Proof.Machine

/-- Fields of a beacon (Table 9.4). -/
structure Beacon where
  time : Nat
  master : Nat
  moff : Int
  hops : Nat
  state : Nat
  link : Nat
  deriving DecidableEq, Repr

/-- Read a beacon. -/
def readBeacon (v : Nat) : Beacon :=
  { time := bits v 95 48, master := bits v 47 28, moff := signed 12 (bits v 27 16), hops := bits v 15 12
    state := bits v 11 8, link := bits v 5 0 }

/-- The route master's logical address (OD 2400.03). -/
def masterAddress (s : State) : Nat := odGet s (od 0x2400 3) % 2 ^ 20

/-- Is this device the route master by address (R229)? -/
def holdsMaster (s : State) : Bool := ownLogical s = some (masterAddress s)

/-- The axes on which the device differs from the master, ascending (R233). -/
def axesFromMaster (s : State) : List Nat :=
  (usedAxes s).filter fun a => onAxis (physicalOf s (masterAddress s)) a ≠ onAxis (coordinate s) a

/-- The link to the parent of R233: the lowest-numbered up link to the neighbour that has the master's coordinate on the
lowest axis that differs. -/
def surveyParent (s : State) : Option Nat :=
  match axesFromMaster s with
  | [] => none
  | a :: _ => (linksTo s a (onAxis (physicalOf s (masterAddress s)) a)).find? (linkUp s)

/-- The link to the parent: the one in use while it is up, else R233's. -/
def parentLink (s : State) : Option Nat :=
  let l := odGet s (od 0x2400 4)
  if l < 48 && linkUp s l then some l else surveyParent s

/-- Set the discipline state. -/
def setDiscipline (s : State) (st : Nat) : State := odSet s (od 0x2400 2) st

/-- Sender's full time: the 64-bit value nearest the receiver's counter (R231); none lies below 0. -/
def fullTime (own time : Nat) : Nat :=
  let base := own / 2 ^ 48 * 2 ^ 48 + time
  if own + 2 ^ 47 < base && 2 ^ 48 ≤ base then base - 2 ^ 48 else if base + 2 ^ 47 < own then base + 2 ^ 48 else base

/-- Offset e in 1/16 tick (R231): positive where the receiver is behind. -/
def beaconOffset (s : State) (l : Nat) (b : Beacon) (arrival : Nat) : Int :=
  (16 * fullTime (arrival / 16) b.time + odGet s (od 0x2403 (l + 1)) : Int) - arrival

/-- Frequency term F in 1/256 ppm. -/
def frequency (s : State) : Int := odInt s (od 0x2400 8)

/-- The loop of R232 on a parent beacon. -/
def disciplineLoop (s : State) (e moff : Int) : State :=
  let f := clampInt (-25600) 25600 (frequency s + 16 * e)
  let r := clampInt (-25600) 25600 (f + 240 * e)
  let s := odSetInt (odSetInt (odSetInt s (od 0x2400 6) e) (od 0x2400 7) (moff - e)) (od 0x2400 8) f
  let good := if e.natAbs ≤ 4 then s.time.goodBeacons + 1 else 0
  { s with time := { s.time with rate := r, goodBeacons := good, lastBeacon := now s } }

/-- Did a link's neighbour send a beacon in the last interval (R236)? -/
def heardLately (s : State) (l : Nat) : Bool :=
  let t := Table.look s.time.heardAt 0 l
  0 < t && now s < t + 16384

/-- Is the device in bounds (R236)? -/
def inBounds (s : State) : Bool :=
  (odInt s (od 0x2400 7)).natAbs ≤ 128 && (countFrom 0 48).all fun l =>
    !linkUp s l || !heardLately s l || (odInt s (od 0x2402 (l + 1))).natAbs ≤ 64

/-- The device becomes MASTER with its frequency term frozen (R229). -/
def becomeMaster (s : State) : State :=
  let s := odSet (odSet (setDiscipline s dsMaster) (od 0x2400 5) 0) (od 0x2400 4) 0xFF
  let s := odSetInt s (od 0x2400 7) 0
  checkReady { s with time := { s.time with rate := frequency s } }

/-- The device is LOCKED. -/
def becomeLocked (s : State) : State := checkReady (odSet (setDiscipline s dsLocked) (od 0x2400 0x0C) 0)

/-- The device enters HOLDOVER (R232, Table 9.5). -/
def enterHoldover (s : State) : State :=
  let s := setDiscipline s dsHoldover
  { s with time := { s.time with rate := frequency s, holdoverAt := now s, goodBeacons := 0 } }

/-- Changes of state on a beacon from the parent (Table 9.5, R229). -/
def parentChange (s : State) : State :=
  let st := discipline s
  let locked := 8 ≤ s.time.goodBeacons
  if st = dsAcquiring then
    if !locked then s else if holdsMaster s then becomeMaster s else becomeLocked s
  else if st = dsUnfit then (if locked && inBounds s then becomeLocked s else s)
  else s

/-- A LOCKED device that breaks a bound is UNFIT (R236). -/
def checkBounds (s : State) : State :=
  if discipline s = dsLocked && !inBounds s then
    let s := setDiscipline s dsUnfit
    { s with time := { s.time with goodBeacons := 0 } }
  else s

/-- Sequence numbering is to restart on every link that is up, by a HELLO in its first service slot (R267). -/
def restartLinks (s : State) : State :=
  (countFrom 0 48).foldl (fun s l =>
    if linkUp s l then modLink s l fun k => { k with
      restarting := true, nextSlot := now s / 4, lastAck := now s
      control := (1, BitVec.ofNat 46 (helloParam s l)) :: k.control }
    else s) s

/-- The survey load (R228, R459). -/
def loadCounter (s : State) (l : Nat) (b : Beacon) (arrival hops : Nat) : State :=
  let t := fullTime (arrival / 16) b.time + linkLatency s l + (now s - arrival / 16)
  let s := odSet (odSet (odSetInt s (od 0x2400 8) 0) (od 0x2400 4) l) (od 0x2400 5) hops
  let s := setDiscipline (odSetInt s (od 0x2400 7) b.moff) dsAcquiring
  restartLinks { s with time := { s.time with
    counter := BitVec.ofNat 64 t, rate := 0, acc := 0, goodBeacons := 0, lastBeacon := t, adjust := none
    heardAt := [], takeover := false } }

/-- May a neighbour's beacon make it the new parent of a device that has lost its own (R233, R235)? -/
def mayAdopt (s : State) (b : Beacon) (e : Int) : Bool :=
  (b.state = dsLocked || b.state = dsMaster) && b.hops + 1 = odGet s (od 0x2400 5)
    && (discipline s = dsUnfit || e.natAbs ≤ 32)

/-- The up link to the neighbour of the lowest hop count, on a tie of the lowest coordinate (R229). -/
def bestNeighbour (s : State) : Option Nat :=
  let key (l : Nat) : Nat := Table.look s.time.hops 15 l * 2 ^ 20 + (peerCoordinate s l).getD (2 ^ 20 - 1)
  ((countFrom 0 48).filter (linkUp s)).foldl (fun best l => match best with
    | none => some l
    | some b => if key l < key b then some l else best) none

/-- A beacon that names this device's master acts (R231 to R235, R459). In HOLDOVER only a new parent's does: the loop is kept as
it is till then (R232, Table 9.5). A device that takes the master's address over chooses its neighbour as links come up, where the
one it had is down (R229). A device takes a parent that is LOCKED or MASTER, and follows the one it has in any state
(R235). -/
def useBeacon (s : State) (l : Nat) (b : Beacon) (arrival : Nat) (e : Int) : State :=
  let st := discipline s
  let ready : Bool := b.state = dsLocked || b.state = dsMaster
  let own : Bool := odGet s (od 0x2400 4) = l
  let follow (s : State) : State := disciplineLoop (odSet s (od 0x2400 4) l) e b.moff
  if st = dsMaster then s
  else if s.time.takeover then
    let s := if linkUp s (odGet s (od 0x2400 4)) then s else odSet s (od 0x2400 4) ((bestNeighbour s).getD 0xFF)
    if odGet s (od 0x2400 4) = l && !runs s then loadCounter s l b arrival 1 else s
  else if st = dsFree then
    if !holdsMaster s && surveyParent s = some l && ready && !runs s then loadCounter s l b arrival (axesFromMaster s).length
    else s
  else if st = dsHoldover then
    if !own && e.natAbs ≤ 32 && ((surveyParent s = some l && ready) || mayAdopt s b e) then becomeLocked (follow s) else s
  else if parentLink s = some l && (own || ready) then checkBounds (parentChange (follow s))
  else if st = dsUnfit && mayAdopt s b e then parentChange (follow s)
  else checkBounds s

/-- A beacon arrives (R231). -/
def takeBeacon (s : State) (l beacon arrival : Nat) : State :=
  if !linkUp s l then s
  else
    let b := readBeacon beacon
    let e := beaconOffset s l b arrival
    let s := odSetInt s (od 0x2402 (l + 1)) e
    let s := { s with time := { s.time with
      hops := Table.put s.time.hops 15 l b.hops
      heardAt := Table.put s.time.heardAt 0 l (now s + 1) } }
    if b.master ≠ masterAddress s then s else useBeacon s l b arrival e

/-- BEACON_RECEIVE (R232). -/
def execBeaconReceive (link : LinkId) (beacon : BitVec 96) (arrival : BitVec 68) (s : State) :
    Host.Outcome State Fault Refusal :=
  .next (takeBeacon s link.val beacon.toNat arrival.toNat)

/-- One tick in the accumulator's unit, 1/256 of a millionth of a tick. -/
def oneTick : Int := 256000000

/-- The accumulator has reached one tick: the adjustment is announced for a value 256 ticks ahead (R227, R232). -/
def announceAdjust (s : State) : State :=
  if s.time.adjust.isSome then s
  else if oneTick ≤ s.time.acc then
    { s with time := { s.time with acc := s.time.acc - oneTick, adjust := some (now s + 256, true) } }
  else if s.time.acc ≤ -oneTick then
    { s with time := { s.time with acc := s.time.acc + oneTick, adjust := some (now s + 256, false) } }
  else s

/-- ROUTE_ADJUST (R232). -/
def execRouteAdjust (s : State) : Host.Outcome State Fault Refusal := .next (announceAdjust s)

/-- PARENT_BEACON_TIMEOUT (R234): three intervals of 16,384 ticks. -/
def execParentBeaconTimeout (s : State) : Host.Outcome State Fault Refusal :=
  .next (if discipline s = dsLocked && s.time.lastBeacon + 49152 ≤ now s then enterHoldover s else s)

/-- HOLDOVER_EXPIRY (R234): 128 intervals. -/
def execHoldoverExpiry (s : State) : Host.Outcome State Fault Refusal :=
  .next (if discipline s = dsHoldover && s.time.holdoverAt + 2097152 ≤ now s then
      setDiscipline { s with time := { s.time with goodBeacons := 0 } } dsUnfit
    else s)

/-- The master address or the holder of it has changed (R229, R234, R235, R459): a master of another address is FREE, a
spare that takes the address over has to load its counter from its best neighbour, and every other device keeps its parent
where R233 gives it again, else waits for R233's. `fresh` is a route survey, in which the holder is MASTER at once with F = 0. -/
def retime (s : State) (fresh : Bool) : State :=
  let st := discipline s
  if holdsMaster s then
    if st = dsMaster then s
    else if fresh then becomeMaster (odSetInt s (od 0x2400 8) 0)
    else
      let s := { s with time := { s.time with takeover := true } }
      odSet (odSet s (od 0x2400 4) ((bestNeighbour s).getD 0xFF)) (od 0x2400 5) 1
  else
    let s := { s with time := { s.time with takeover := false } }
    if st = dsMaster then odSet (odSet (setDiscipline s dsFree) (od 0x2400 4) 0xFF) (od 0x2400 5) (axesFromMaster s).length
    else if st = dsFree then s
    else
      let keeps : Bool := surveyParent s = some (odGet s (od 0x2400 4))
      odSet (if keeps then s else odSet s (od 0x2400 4) 0xFF) (od 0x2400 5) (axesFromMaster s).length

end Sys2Proof.Machine
end

