-- ==== Sys2Proof/Machine/Observe.lean ====
section
/-! DEFINITION. Counter overflows, samples and tallies (R430, R431, R436 to R438). -/

namespace Sys2Proof.Machine

/-- COUNTER_OVERFLOW (R430): a count of an enabled counter passes 2^48 - 1. The counts of the model's own ticks overflow in
the same way (log entry 37). -/
def execCounterOverflow (counter : Fin 2528) (s : State) : Host.Outcome State Fault Refusal :=
  let i := counter.val
  let p := counterPlace i
  .next (
    if cfgEnable (odGet s p.config) && odGet s (od 0x4800 3) = 0 && 2 ^ 48 ≤ odGet s p.value + 255 then
      overflowCounter s i 0
    else s)

/-- OVERFLOW_INTERRUPT_TIMER (R430). -/
def execOverflowInterruptTimer (s : State) : Host.Outcome State Fault Refusal :=
  .next (
    if s.observe.overflowMore && s.observe.overflowEnd ≤ now s then
      sendMsix { s with observe := { s.observe with overflowMore := false, overflowEnd := now s + 65536 } } (sourceVector s 5)
    else s)

/-- A write of sequence number v to OD 4800.09 removes that sample and every earlier one (R431). -/
def acknowledgeSamples (s : State) (v : Nat) : State :=
  if s.observe.samples.any fun b => field b 0 4 = v then
    { s with observe := { s.observe with samples := (s.observe.samples.dropWhile fun b => field b 0 4 ≠ v).drop 1 } }
  else s

/-- The operands of a tally as they stand (R436). -/
def readTally (s : State) : Tally :=
  { mode := odGet s (od 0x4C00 1), time := odGet s (od 0x4C00 2), stage := odGet s (od 0x4C00 3)
    offset := odGet s (od 0x4C00 4), number := odGet s (od 0x4C00 5), slot := odGet s (od 0x4C00 8), due := none }

/-- Is an arm refused (R436)? A tally of mode 0 arms nothing and is refused as well (log entry 37). -/
def tallyRefused (s : State) : Bool :=
  let y := readTally s
  match y.mode with
  | 1 => decide (y.time < now s + 4096)
  | 2 => runs s && y.slot = runningSlot s && stageNumber s ≠ 2 ^ 64 - 1 && decide (y.stage ≤ stageNumber s)
  | _ => true

/-- Effect of an arm that is not refused (R436). -/
def armTally (s : State) : State :=
  odSet { s with observe := { s.observe with armed := some (readTally s) } } (od 0x4C00 7) 1

/-- Effect of a disarm (R436). -/
def disarmTally (s : State) : State := odSet { s with observe := { s.observe with armed := none } } (od 0x4C00 7) 0

/-- A link's record of a snapshot. -/
def tallyLink (s : State) (l : Nat) : Bytes :=
  let i := linkIndex l
  ofDie s (2 + l / 24) ([BitVec.ofNat 8 (odGet s (od i 1)), 0] ++ leBytes (odGet s (od i 0x10)) 2
    ++ leBytes (getLink s l).held.length 2 ++ leBytes (getLink s l).dynamic.length 2)

/-- The header of a snapshot for trigger tick t (Table 17.10). -/
def tallyHeader (s : State) (y : Tally) (t : Nat) : Bytes :=
  let flags := flag (inBounds s) + 4 * flag ((countFrom 0 4).any fun d => Table.look s.boot.dieReset 0 d ≠ 0)
  let hot := odGet s (od 0x2800 0x0B)
  leBytes y.number 4 ++ [BitVec.ofNat 8 y.mode, BitVec.ofNat 8 (deviceState s), BitVec.ofNat 8 (discipline s), BitVec.ofNat 8 flags]
    ++ leBytes t 8 ++ leBytes (now s) 8 ++ leBytes (stageNumber s) 8 ++ leBytes (now s - s.stage.start) 4
    ++ [BitVec.ofNat 8 (runningSlot s), BitVec.ofNat 8 (odGet s (od 0x2410 2)), 0, 0] ++ leBytes (odGet s (od 0x2800 1)) 2
    ++ [BitVec.ofNat 8 hot, 0] ++ leBytes (odGet s (od (0x2840 + hot) 5)) 4 ++ zeroBytes 16

/-- The snapshot (Table 17.10). -/
def snapshotBytes (s : State) (y : Tally) (t : Nat) : Bytes :=
  tallyHeader s y t ++ allCores.flatMap (tallyCore s)
    ++ (countFrom 0 2).flatMap (fun d => ofDie s (2 + d) (counterValues s (portCounters d) 16))
    ++ (countFrom 0 24).flatMap (fun g => ofDie s (ifaceDie g) (counterValues s (engineCounters g) 8))
    ++ (countFrom 0 48).flatMap (tallyLink s)
/-- The tick at which the armed tally triggers, where it has come (R437). -/
def tallyTick (s : State) (y : Tally) : Option Nat :=
  (if y.mode = 1 then some y.time else y.due).filter (· ≤ now s)

/-- Ends of cycles of logical core n until the end of its first cycle that begins now or later: 0 where its clock does not run, and its
record stands as it is (R437). -/
def latchWait (s : State) (n : Nat) : Nat :=
  let r := getRow s (n / 12)
  if r.stopped || !dieRuns s (n / 144) || (coreOf s n).state = .off then 0 else if r.phase = 0 then 1 else 2

/-- The snapshot is latched into buffer (tally number mod 2) (R438). A core's record is that of its own latch cycle: the one latched
here gives way to it (R437). -/
def latchTally (s : State) (y : Tally) (t : Nat) : State :=
  let i := 0x4C01 + y.number % 2
  let b := snapshotBytes s y t
  let waits := allCores.filterMap fun n => if latchWait s n = 0 then none else some (n, latchWait s n)
  let s := odSet (odSetBytes s (od i 1) b) (od i 2) y.number
  odSet { s with observe := { s.observe with armed := none, latching := waits, latchInto := od i 1 } } (od 0x4C00 7) 2

/-- TALLY_TRIGGER (R437). -/
def execTallyTrigger (s : State) : Host.Outcome State Fault Refusal :=
  .next (match s.observe.armed with
    | none => s
    | some y => match tallyTick s y with
      | some t => latchTally s y t
      | none => s)

end Sys2Proof.Machine
end

