-- ==== Sys2Proof/Machine/Power.lean ====
section
/-! DEFINITION. Power, temperature and ageing as they reach the device from outside: converters, sensors, power samples,
replica-path monitors, dividers and regulators (R242, R243, R402 to R417, R484). -/

namespace Sys2Proof.Machine

/-- Object index of converter k. -/
def converterIndex (k : Nat) : Nat := 0x2810 + k

/-- PMBus of converter k (Table 16.1). -/
def converterBus (k : Nat) : Bool := !([0, 1, 2, 3, 4, 5, 9, 10] : List Nat).contains k

/-- Interfaces that converter k feeds (Table 16.1): stacks 0 to 15, LPDDR5X interfaces 16 to 23. -/
def fedInterfaces (k : Nat) : List Nat :=
  if 3 ≤ k && k ≤ 5 then countFrom 0 8 else if 6 ≤ k && k ≤ 8 then countFrom 8 8
  else if 9 ≤ k && k ≤ 11 then countFrom 16 8 else []

/-- Links of a port die. -/
def dieLinks (portDie : Nat) : List Nat := countFrom (24 * portDie) 24

/-- Interfaces go to state 2, which is a device-level loss with cause 0x11 (R404, R405, Table 12.5). -/
def failInterfaces (s : State) (l : List Nat) : State :=
  let hit := l.filter fun i => odGet s (od (ifaceIndex i) 2) ≠ 2
  let s := hit.foldl (fun s i => odSet s (od (ifaceIndex i) 2) 2) s
  match hit with
  | [] => s
  | i :: _ => raiseLoss s 0x11 (ifaceKind i) (ifaceUnit i) 0

/-- What a converter fault does (R405). -/
def converterFault (s : State) (k : Nat) : State :=
  let s := odAdd s (od (converterIndex k) 9) 1
  if k < 3 then s
  else
    let s := odSet s (od (converterIndex k) 7) 3
    if k < 12 then failInterfaces s (fedInterfaces k)
    else (dieLinks ((k - 12) / 2)).foldl (fun s l => declareDown s l 3) s

/-- Does a STATUS_WORD hold a fault bit? Every bit but BUSY [7] counts as one (log entry 36). -/
def faultStatus (w : Nat) : Bool := clearBit w 7 ≠ 0

/-- The steward takes the PMBus (R403). -/
def takeBus (s : State) : State := { odSet s (od 0x2800 9) 1 with pins := { s.pins with pmbOwnN := false } }

/-- One poll of converter k (R405): a fault bit that was not set at the last poll, or the tenth poll in succession with no
valid answer, is a converter fault. A steward that has restarted takes the bus with its first poll (R403, log entry 60). -/
def pollConverter (s : State) (k : Nat) (r : PollReading) : State :=
  let i := converterIndex k
  let stops : Bool := odGet s (od i 1) = 0 || !s.boot.runningFirmware || !stewardRuns s
  let s := if stops then s else takeBus s
  if stops then s
  else if r.answered then
    let old := odGet s (od i 6)
    let s := odSet (odSet s (od i 3) r.millivolts.toNat) (od i 4) r.milliamps.toNat
    let s := odSet (odSet s (od i 5) r.temperature.toNat) (od i 6) r.statusWord.toNat
    let s := { s with power := { s.power with pollFailures := Table.put s.power.pollFailures 0 k 0 } }
    if faultStatus r.statusWord.toNat && !faultStatus old then converterFault s k else s
  else
    let n := Table.look s.power.pollFailures 0 k + 1
    let s := { s with power := { s.power with pollFailures := Table.put s.power.pollFailures 0 k n } }
    if n = 10 then converterFault s k else s

/-- PMBUS_POLL (R405). -/
def execPmbusPoll (converter : ConvId) (reading : PollReading) (s : State) : Host.Outcome State Fault Refusal :=
  .next (pollConverter s converter.val reading)

/-- PMBUS_ALERT (R447): the converters of the bus that are present are polled at once, in ascending order. -/
def execPmbusAlert (bus : Bool) (readings : List PollReading) (s : State) : Host.Outcome State Fault Refusal :=
  let on := (countFrom 0 16).filter fun k => converterBus k = bus && odGet s (od (converterIndex k) 1) = 1
  .next ((on.zip readings).foldl (fun s x => pollConverter s x.1 x.2) s)

/-- Has the device its regulators and its steward's sensors: it is CALIBRATING or beyond? -/
def powered (s : State) : Bool := stCalibrating ≤ deviceState s

/-- THERMAL_TRIP (R243, R484). -/
def execThermalTrip (row : RowId) (s : State) : Host.Outcome State Fault Refusal :=
  .next (if powered s then tripRow s row.val else s)

/-- The hold of R413; with no itinerary running, the stop of R484. -/
def holdDevice (s : State) : State :=
  if runs s then enterHold s
  else
    let s := if s.power.hold then s else odAdd s (od 0x2800 7) 1
    setThrottle (stopRows { s with power := { s.power with hold := true, restless := true } }) 4

/-- THERMAL_HOLD (R413). -/
def execThermalHold (s : State) : Host.Outcome State Fault Refusal := .next (if powered s then holdDevice s else s)

/-- THERMAL_SHUTDOWN (R414, R452): THERMTRIP_N falls and stays low until PWRGD_IN falls. -/
def execThermalShutdown (s : State) : Host.Outcome State Fault Refusal :=
  .next { s with pins := { s.pins with thermtripN := false } }

/-- Temperature of a region (OD 28rr.05) in 1/16 of a degree. -/
def regionTemp (s : State) (r : Nat) : Int := odInt s (od (regionPower r) 5)

/-- The hottest region, ties by lowest number. -/
def hottest (s : State) : Nat :=
  allRegions.foldl (fun m r => if regionTemp s m < regionTemp s r then r else m) 0

/-- Is every region below the restore threshold? -/
def allCool (s : State) : Bool := allRegions.all fun r => decide (regionTemp s r < odInt s (od 0x2801 2))

/-- A region that is no row's is at the trip threshold: the throttle step is one step slower at the next post (Table 16.4). -/
def raiseThrottle (s : State) : State := { s with power := { s.power with thermalRaise := true, restless := true } }

/-- A thermal trip of region r that the steward sees: a row's clock drops; for another region the throttle step is one step
slower at action 5 of the next post (R222, Table 16.4). -/
def tripRegion (s : State) (r : Nat) : State :=
  if isRowRegion r then tripRow s (regionRow r)
  else
    let s := odAdd s (od (regionPower r) 7) 1
    raiseThrottle s

/-- A pair of neighbours has come to differ by more than 25 degrees: the hotter trips (R222). A region that no sample has been
taken of has no temperature to compare; `old` is what region r had. -/
def compareNeighbours (r : Nat) (old : Option Int) (s : State) (q : Nat) : State :=
  let a := regionTemp s r
  let b := regionTemp s q
  let fresh : Bool := match old with
    | some o => (o - b).natAbs ≤ 400
    | none => true
  if s.power.sensed.contains q && 400 < (a - b).natAbs && fresh then tripRegion s (if b < a then r else q) else s

/-- A sample of a region that is no row's, against the trip threshold (R412): the region trips where it comes to the threshold, and
raises the throttle step at every post while it is there. -/
def compareTrip (s : State) (r : Nat) (t : Int) : State :=
  if isRowRegion r then s
  else if t < odInt s (od 0x2801 1) then { s with power := { s.power with hot := s.power.hot.filter (· ≠ r) } }
  else if s.power.hot.contains r then raiseThrottle s
  else tripRegion { s with power := { s.power with hot := r :: s.power.hot } } r

/-- SENSOR_SAMPLE (R412): the higher of two sensors, in 1/16 of a degree. A region other than a row's at its trip threshold raises the
throttle step at the next post; a row's trip, the hold and the shutdown have commands of their own. -/
def execSensorSample (region : RegionId) (sensor0 sensor1 : Int) (s : State) : Host.Outcome State Fault Refusal :=
  let r := region.val
  let old := regionTemp s r
  let sensed := s.power.sensed.contains r
  let t := max sensor0 sensor1
  .next (
    if !powered s || !stewardRuns s then s
    else
      let s := if sensed then s else { s with power := { s.power with sensed := r :: s.power.sensed } }
      let s := odSetInt s (od (regionPower r) 5) t
      let s := if odInt s (od (regionPower r) 6) < t then odSetInt s (od (regionPower r) 6) t else s
      let s := odSet s (od 0x2800 0x0B) (hottest s)
      let s := if odInt s (od 0x2801 2) ≤ t then
          { s with power := { s.power with restless := true, restoreBase := now s } } else s
      let s := compareTrip s r t
      let s := (neighbours r).foldl (compareNeighbours r (if sensed then some old else none)) s
      if !runs s && s.power.hold && allCool s then startRows { s with power := { s.power with hold := false } } else s)

/-- Samples in 1 ms, rounded up, and 1 ms averages in 1 s (log entry 36). -/
def samplesPerMs : Nat := 1221

/-- Sum of the samples of the last 1 ms. -/
def peakSum (s : State) : Nat := s.power.averages.foldl (· + ·) 0

/-- A sample of input power in mW enters the averages and the energy (R411, OD 2800.0A): 819.2 ns of it. -/
def enterSample (s : State) (mw : Nat) : State :=
  let rest := s.power.energyRest + mw * 8192
  let s := odAdd s (od 0x2800 0x0A) (rest / 10 ^ 10)
  let last := (mw :: s.power.averages).take samplesPerMs
  let due := samplesPerMs ≤ s.power.sampled + 1
  let ms := last.foldl (· + ·) 0 / samplesPerMs
  let s := { s with power := { s.power with
    samples := s.power.samples + 1, energyRest := rest % 10 ^ 10, averages := last, sampled := if due then 0 else s.power.sampled + 1
    second := if due then (ms :: s.power.second).take 1000 else s.power.second } }
  odSet (odSet s (od 0x2800 1) (ms / 1000)) (od 0x2800 4) (s.power.second.foldl (· + ·) 0 / 1000 / 1000)

/-- The limits of R411. DESIGN CHOICE (log entry 60): the rows trip when the 1 ms average comes to exceed the peak limit, and once in
each stage while it still does. -/
def checkPower (s : State) : State :=
  let exceeds := decide (odGet s (od 0x2800 2) * 1000 * samplesPerMs < peakSum s)
  let s := if exceeds && !s.power.overPeak then allRows.foldl tripRow (odAdd s (od 0x2800 5) 1) else s
  let due := decide (odGet s (od 0x2800 3) * 1000 * 1000 < s.power.second.foldl (· + ·) 0)
  { s with power := { s.power with overPeak := exceeds, raiseDue := s.power.raiseDue || due } }

/-- POWER_SAMPLE (R411). -/
def execPowerSample (milliwatts : Nat) (s : State) : Host.Outcome State Fault Refusal :=
  .next (if powered s && stewardRuns s then checkPower (enterSample s milliwatts) else s)

/-- THROTTLE_RESTORE (R484): 100 ms with no itinerary running and every region below the restore threshold. -/
def execThrottleRestore (s : State) : Host.Outcome State Fault Refusal :=
  let t := odGet s (od 0x2410 5)
  .next (
    if !runs s && powered s && 0 < t && s.power.restoreBase + 125000000 ≤ now s && allCool s then setThrottle s (t - 1)
    else s)

/-- MONITOR_SAMPLE (R417): only while the regulator is settled and the region runs at its planned step; the largest delay
since the last survey is kept. -/
def execMonitorSample (region : RegionId) (monitor : Fin 6) (taps : BitVec 16) (s : State) :
    Host.Outcome State Fault Refusal :=
  let r := region.val
  let k := 6 * r + monitor.val
  let planned := !isRowRegion r || (rowStep s (regionRow r) = deviceStep s && !(getRow s (regionRow r)).stopped)
  .next (
    if odGet s (od (regionPower r) 4) = 2 && planned && monitorServes s r monitor.val
        && (Table.look s.power.monitors 0 k).toNat < taps.toNat then
      { s with power := { s.power with monitors := Table.put s.power.monitors 0 k taps } }
    else s)

/-- DIVIDER_SWITCH (R242): 256 ticks before the next stage starts. -/
def execDividerSwitch (s : State) : Host.Outcome State Fault Refusal :=
  .next (
    if (s.stage.phase = .verdict || s.stage.phase = .armed) && s.stage.nextStart ≤ now s + 256 then switchDividers s
    else s)

/-- REGULATOR_SETTLED (R406). -/
def execRegulatorSettled (region : RegionId) (s : State) : Host.Outcome State Fault Refusal :=
  .next (settleRegulator s region.val)

/-- A region's regulator is in fault (R409): its row is lost, or its die has failed. -/
def regulatorFault (s : State) (r : Nat) : State :=
  if odGet s (od (regionPower r) 4) = 3 then s
  else
    let s := odSet s (od (regionPower r) 4) 3
    if isRowRegion r then raiseLoss s 0x10 kindRow (regionRow r) 0 else raiseLoss s 0x14 kindDie (regionDie r) 0

/-- REGULATOR_FAULT (R409). -/
def execRegulatorFault (region : RegionId) (s : State) : Host.Outcome State Fault Refusal :=
  .next (if powered s then regulatorFault s region.val else s)

end Sys2Proof.Machine
end

