-- ==== Sys2Proof/Machine/Package.lean ====
section
/-! DEFINITION. Reset of the part, start-up, per-die resets, the steward's watchdog and the ring ports' links (R364, R403,
R404, R449 to R466). -/

namespace Sys2Proof.Machine

/-- The part is held in reset: its PLLs have not locked (R450, R454). -/
def heldInReset (s : State) : Bool := odGet s (od 0x2420 1) = 0 && (deviceState s = stBoot || deviceState s = stOff)

/-- Levels of the part's outputs of Table 18.4 that R452 gives: the status outputs, and what it drives while in reset. -/
structure OutputLevels where
  thermtripN : Bool
  devOk : Bool
  pmbOwnN : Bool
  /-- QSPI_CS_N is held high, LP_RESET_N low, and the transmitters are electrically idle. -/
  qspiDeselected : Bool
  lpResetN : Bool
  transmittersIdle : Bool
  deriving DecidableEq, Repr

/-- DEV_OK (R452, Table 18.4): the steward runs firmware and the device is not FAULTED. -/
def devOk (s : State) : Bool :=
  s.boot.runningFirmware && deviceState s ≠ stFaulted && deviceState s ≠ stBoot && deviceState s ≠ stOff

/-- The output levels (R452). Out of reset the flash is selected only while the boot ROM or the steward accesses it, which no state of
the model shows. -/
def outputLevels (s : State) : OutputLevels :=
  { thermtripN := s.pins.thermtripN, devOk := devOk s, pmbOwnN := s.pins.pmbOwnN
    qspiDeselected := true, lpResetN := !heldInReset s, transmittersIdle := heldInReset s }

/-- Does the host port answer a configuration request with Request Retry Status (R451): it has trained, and no firmware runs? -/
def retriesConfiguration (s : State) : Bool := attachMode s ≠ 0 && !s.boot.runningFirmware

/-- The part is held in reset (R450, R452, R462): everything is as after State.reset but what the part keeps, its fuses and
flash, the pins that others drive, and the thermal shutdown output until PWRGD_IN falls. The queue of commands, the log of
what has left the device and the counter of free values are the model's own and stay. While the board's power is not good the
device is OFF (R378). A reset with PWRGD_IN high is warm (R462). -/
def resetPart (s : State) (pwrgdFell : Bool) : State :=
  { (if pwrgdFell then odSet State.reset (od 0x1001 1) stOff else State.reset) with
    pending := s.pending, out := s.out, fresh := s.fresh, fuses := s.fuses, flash := s.flash
    pins := { State.reset.pins with
      perstN := s.pins.perstN, thermtripN := if pwrgdFell then true else s.pins.thermtripN }
    boot := { State.reset.boot with warm := !pwrgdFell } }

/-- PART_RESET (R450). -/
def execPartReset (pwrgdFell : Bool) (s : State) : Host.Outcome State Fault Refusal := .next (resetPart s pwrgdFell)

/-- Regulators of regions settle at their targets. -/
def settleRegions (s : State) (l : List Nat) : State :=
  let t := regionTargets s
  l.foldl (fun s r =>
    let i := regionPower r
    odSet (odSet (odSet s (od i 1) (t.getD r 0)) (od i 2) (t.getD r 0)) (od i 4) 2) s

/-- The steward takes over: CALIBRATING begins and it takes the PMBus (R403). After a warm reset it switches converters 15 down to 3 off
and waits 10 ms before it raises them (R462). A loss that arose in BOOT takes effect. -/
def enterCalibrating (s : State) : State :=
  let s := setDeviceState (takeBus s) stCalibrating
  let s := if s.boot.warm then
      let s := (countFrom 3 13).reverse.foldl (fun s k => odSet s (od (converterIndex k) 7) 0) s
      { s with boot := { s.boot with railsFrom := now s + 12500000 } }
    else s
  settleLoss s

/-- Every physical core OFF: its row's regulator is off until start-up step 2 (R33, Table 18.6). -/
def darkCores : Table Core := (countFrom 0 312).map fun p => (p, { Core.resetAt p with state := .off })

/-- Cores whose row is powered again: IDLE, or STANDBY as reserves (R33). -/
def lightCores (s : State) : State := { s with cores := s.cores.filter fun e => e.2.state ≠ .off }

/-- Reset ends (R449, R454): straps are sampled, PLLs lock, the regulators of every region but the rows' settle, the route
counter starts from 0 and the boot ROM runs. -/
def endReset (s : State) (coord : BitVec 20) (recovery testEn : Bool) : State :=
  let s := { s with
    pins := { s.pins with coord := coord, recovery := recovery, testEn := testEn }
    time := { s.time with counter := 0 } }
  let s := odSet (odSet (odSet s (od 0x1001 1) stBoot) (od 0x2420 1) 0x0F) (od 0x3A00 1) coord.toNat
  let s := { odSet s (od 0x1100 1) (0x024700000000 + s.fuses.serial.toNat % 2 ^ 32) with cores := darkCores }
  let s := settleRegions s (allRegions.filter fun r => !isRowRegion r)
  if recovery || testEn then s
  else
    let s := bootRom s
    if s.boot.runningFirmware then enterCalibrating s else s

/-- RESET_END (R454). The command is an event of a part in reset: its PLLs are not locked. -/
def execResetEnd (coord : BitVec 20) (recovery testEn : Bool) (s : State) : Host.Outcome State Fault Refusal :=
  .next (if heldInReset s then endReset s coord recovery testEn else s)

/-- Groups of rails that R404 switches together. -/
def railGroups : List (List Nat) := [[3, 4, 5], [6, 7, 8], [9, 10, 11], [12, 13], [14, 15]]

/-- The converters of a group that answer. Of the failed units of step 1a, k names converter k as out of tolerance, and 16 + k as one
that does not answer (log entry 60). -/
def answering (failed : List Nat) (g : List Nat) : List Nat := g.filter fun k => !failed.contains (16 + k)

/-- Has every converter of a group answered and reached tolerance? -/
def inTolerance (failed : List Nat) (g : List Nat) : Bool := decide (answering failed g = g) && !g.any failed.contains

/-- Converters answer (281k.01), and are in tolerance or not (281k.07). -/
def noteConverters (failed : List Nat) (good : Bool) (s : State) (g : List Nat) : State :=
  let s := (answering failed g).foldl (fun s k => odSet s (od (converterIndex k) 1) 1) s
  if good then g.foldl (fun s k => odSet s (od (converterIndex k) 7) 2) s else s

/-- One group of rails after step 1a (R404): it is in tolerance; or absent, where none of the LPDDR5X converters answers; or switched
off, and what it feeds has failed. -/
def raiseGroup (failed : List Nat) (s : State) (g : List Nat) : State :=
  let good := inTolerance failed g
  let s := noteConverters failed good s g
  if good || (g.contains 9 && (answering failed g).isEmpty) then s
  else failInterfaces s (g.flatMap fun k => if k % 3 = 0 then fedInterfaces k else [])

/-- Capacities of the interleaved windows (OD 401x.02). -/
def noteWindows (s : State) : State :=
  let s := (countFrom 0 2).foldl (fun s d =>
    odSet s (od (0x4010 + d) 2) (8 * (s.fuses.stackGiB.toNat - odGet s (od (0x4010 + d) 1)))) s
  (countFrom 0 2).foldl (fun s d =>
    odSet s (od (0x4012 + d) 2) (4 * (lpUsable s (4 * d) / gib - odGet s (od (0x4012 + d) 1)))) s

/-- An interface's lines are written with zero data and good check bits, and it enters state 1 (R457). -/
def initialise (s : State) (i capacity usable : Nat) : State :=
  let x := ifaceIndex i
  let bad := s.ext.bad.filter fun e => match locate s (64 * e.1) with
    | some p => p.iface ≠ i
    | none => true
  let s := { s with ext := { s.ext with
    cells := s.ext.cells.filter fun c => c.1 / 2 ^ 40 ≠ i, bad := bad, badHalf := s.ext.badHalf.filter fun e => bad.any fun b => b.1 = e.1, badLines := Table.put s.ext.badLines [] i [] } }
  noteWindows (odSet (odSet (odSet s (od x 1) capacity) (od x 3) usable) (od x 2) 1)

/-- A port die whose four interfaces have been measured and differ in size holds no memory (R140). DESIGN CHOICE (log entry 57): where
one of them has failed its training, which the spec does not order with a mismatch, its state 2 stands and the die has none. -/
def checkMismatch (s : State) (portDie : Nat) : State :=
  let all := countFrom (4 * portDie) 4
  let sized := all.all fun i => s.boot.stepsDone.any fun c => match c with
    | .lpInterface j _ => j.val = i
    | _ => false
  let size (i : Nat) : Nat := odGet s (od (0x4020 + i) 1)
  let first := size (4 * portDie)
  if sized && !(all.any fun i => odGet s (od (0x4020 + i) 2) = 2)
      && ((all.any fun i => size i ≠ first) || !([0, 16, 32, 64] : List Nat).contains first) then
    noteWindows (all.foldl (fun s i => odSet s (od (0x4020 + i) 2) 3) s)
  else s

/-- Crossings are calibrated (R223): the rows that failed are lost. -/
def calibrateRows (s : State) (failed : List Nat) : State :=
  let s := calibrateDie (calibrateDie (lightCores (settleRegions s (allRegions.filter isRowRegion))) 0) 1
  let s := odSet (odSet s (od 0x2420 2) (if failed.isEmpty then 1 else 2)) (od 0x2420 3) failed.length
  let s := failed.foldl (fun s row => odSet s (od (regionClock (rowRegion row)) 4) 1) s
  match failed with
  | [] => s
  | row :: _ => raiseLoss s 0x10 kindRow row 0

/-- The start-up test leaves every core zero and in its state; cores that fail are retired (R456). -/
def testCores (s : State) (failed : List Nat) : State :=
  let s := (countFrom 0 312).foldl (fun s p => setCore s p (Core.resetAt p)) s
  failed.foldl (fun s p =>
    let row := p / 13
    let s := modCore s p fun c => { c with state := .retired }
    if odGet s (od (0x3400 + row) 2) = 0 then raiseLoss s 0x10 kindRow row 0
    else
      let s := odSet (odSet s (od (0x3400 + row) 1) (p % 13)) (od (0x3400 + row) 2) 0
      let s := if p % 13 = 12 then s else modCore s (13 * row + 12) fun c => { c with state := .idle }
      escalate (degrade s) 0x20 kindCore p 0) s

/-- The route survey's first part (R459): the device that holds the master's address becomes MASTER once links may train. -/
def surveyStarts (s : State) : State :=
  if deviceState s = stCalibrating && stepDone s .rails && odGet s (od 0x3A00 4) ≠ 0 && holdsMaster s then retime s true else s

/-- May a start-up step finish now: those that it waits for have (R455)? -/
def stepReady (s : State) (c : CalStep) : Bool :=
  match c with
  | .rails => s.boot.railsFrom ≤ now s
  | .dieToDie => true
  | .rowRegulators => stepDone s .rails && stepDone s .dieToDie
  | .coreTest => stepDone s .rowRegulators
  | .hbmStack _ => stepDone s .rails && stepDone s .dieToDie
  | .lpInterface _ _ => stepDone s .rails && stepDone s .dieToDie && !lpAbsent s
  | .links _ => stepDone s .rails && odGet s (od 0x3A00 4) ≠ 0
  | .survey => stepDone s .rails

/-- The effect of a start-up step, with the units that failed in it (Table 18.6). -/
def stepEffect (s : State) (c : CalStep) (failed : List Nat) : State :=
  match c with
  | .rails => surveyStarts (railGroups.foldl (raiseGroup failed) (noteConverters failed true s [0, 1, 2]))
  | .dieToDie => match failed with
    | [] => s
    | u :: _ => raiseLoss s 0x13 kindModule u 0
  | .rowRegulators => calibrateRows s failed
  | .coreTest => testCores s failed
  | .hbmStack k =>
    if odGet s (od (0x4000 + k.val) 2) = 2 then s
    else if failed.isEmpty then initialise s k.val s.fuses.stackGiB.toNat s.fuses.stackGiB.toNat
    else failInterfaces (odSet s (od (0x4000 + k.val) 1) s.fuses.stackGiB.toNat) [k.val]
  | .lpInterface i raw =>
    let x := 0x4020 + i.val
    let s := if odGet s (od x 2) = 2 then s
      else if !failed.isEmpty then failInterfaces (odSet s (od x 1) raw) [16 + i.val]
      else if raw = 0 then odSet (odSet s (od x 1) 0) (od x 3) 0
      else initialise s (16 + i.val) raw (raw * 7 / 8)
    checkMismatch s (i.val / 4)
  | .links _ => s
  | .survey => s

/-- The board's own rails hold step 1a up: a converter of 0 to 2 does not answer or is out of tolerance (R404). -/
def railsWait (c : CalStep) (failed : List Nat) : Bool := decide (c = .rails) && !inTolerance failed [0, 1, 2]

/-- CALIBRATION_STEP_DONE (R455, R460). -/
def execCalibrationStepDone (step : CalStep) (failed : List Nat) (s : State) : Host.Outcome State Fault Refusal :=
  .next (
    if deviceState s ≠ stCalibrating || stepDone s step || !stepReady s step then s
    else if railsWait step failed then noteConverters failed false s [0, 1, 2]
    else
      let s := { s with boot := { s.boot with stepsDone := step :: s.boot.stepsDone } }
      checkReady (stepEffect s step failed))

/-- A plan die's logic is reset (Table 18.8): its cores, their scratchpad and banks, its mesh and die-to-die traffic, its
engines' queues and inboxes, and what its tracker holds of the port die's engines. -/
def resetPlanDie (s : State) (d : Nat) : State :=
  let s := (countFrom (156 * d) 156).foldl (fun s p =>
    let c := getCore s p
    let st := if c.state = .retired || c.state = .standby || c.state = .off then c.state else .idle
    setCore s p { Core.resetAt p with state := st, hasBank := false }) s
  let s := (countFrom (8 * d) 8).foldl (fun s g => setEngine s g Engine.reset) s
  let ofDie (r : GlazeReq) : Bool := match r.source with
    | some (n, _) => n / 144 = d
    | none => false
  let s := (countFrom (16 + 4 * d) 4).foldl (fun s g =>
    let e := getEngine s g
    setEngine s g { e with waiting := e.waiting.filter fun r => !ofDie r, held := e.held.filter fun r => !ofDie r }) s
  { s with fabric := { s.fabric with units := s.fabric.units.filter fun e =>
      let ownSide : List Nat := if d = 0 then [0, 2] else [1, 4]
      if 0x100000 ≤ e.1 then !ownSide.contains ((e.1 - 0x100000) / 16384) else e.1 / 8 / 13 / 12 ≠ d } }

/-- A link of a port die that is reset: an attempt ends, a link that carries traffic is down with cause 3 and sends no DOWN (R466). -/
def stopLink (s : State) (l : Nat) : State :=
  if training s l then endAttempt s l else modLink (declareDown s l 3) l fun k => { k with downSlots := 0 }

/-- A port die's logic is reset (Table 18.8, R466): its links go down, its engines lose their queues, its crossbar and its side
what they hold (R226), and Q0 takes the host port with it. -/
def resetPortDie (s : State) (d : Nat) : State :=
  let s := (dieLinks d).foldl stopLink s
  let s := (countFrom (16 + 4 * d) 4).foldl (fun s g => setEngine s g Engine.reset) s
  let f := s.fabric
  let ofDie (k : Nat) : Bool := k / 2 ^ 14 / 24 = d
  let s := { s with fabric := { f with
    units := f.units.filter fun e => e.1 < 0x100000 || (e.1 - 0x100000) / 16384 ≠ 3 + 2 * d
    sources := f.sources.filter fun e => !ofDie (e.1 / 2 ^ 20)
    forwards := f.forwards.filter fun e => !ofDie (e.1 / 65536) } }
  if d = 0 then untrainHost (resetHostPort s) else s

/-- A die's root PLL loses lock (R218, R464, R465). While an itinerary runs the device votes foul with cause reset, and a
second loss of one die within 64 posts is a device-level loss. -/
def loseLock (s : State) (d : Nat) : State :=
  let s := { odSet s (od 0x2420 1) (clearBit (odGet s (od 0x2420 1)) d) with
    boot := { s.boot with dieReset := Table.put s.boot.dieReset 0 d (1 + now s) } }
  let s := if d < 2 then resetPlanDie s d else resetPortDie s (d - 2)
  if !runs s then s
  else
    let h := getStrikes s (unitKey kindDie d)
    let second := h.history ≠ 0 || !h.sites.isEmpty
    let s := setCause (detect s kindDie d 0) causeReset
    let s := { s with boot := { s.boot with
      resetDies := if s.boot.resetDies.contains d then s.boot.resetDies else s.boot.resetDies ++ [d] } }
    if second then raiseLoss s 0x14 kindDie d 0 else s

/-- ROOT_PLL_LOCK_LOSS (R464). -/
def execRootPllLockLoss (die : DieId) (s : State) : Host.Outcome State Fault Refusal :=
  .next (if bitAt (odGet s (od 0x2420 1)) die.val then loseLock s die.val else s)

/-- A die is ready again (R223, R464, R465): its PLL is locked and its crossings are calibrated; a row with one that failed is
lost. With no itinerary running the die has repeated its own steps of Table 18.6 (R465): its row regulators settle, its cores are
tested and serve again. DESIGN CHOICE (log entry 60): its memory keeps what Table 18.8 has it keep. A running itinerary reloads its cores
at the post. -/
def readyDie (s : State) (d : Nat) (failed : List Nat) : State :=
  let s := calibrateDie s d
  let s := odSet (odSet s (od 0x2420 2) (if failed.isEmpty then 1 else 2)) (od 0x2420 3) failed.length
  let s := failed.foldl (fun s row => odSet s (od (regionClock (rowRegion row)) 4) 1) s
  let s := match failed with
    | [] => s
    | row :: _ => raiseLoss s 0x10 kindRow row 0
  let s := { odSet s (od 0x2420 1) (setBit (odGet s (od 0x2420 1)) d) with
    boot := { s.boot with dieReset := Table.put s.boot.dieReset 0 d 0 } }
  if 2 ≤ d || runs s then s
  else
    let s := if stepDone s .rowRegulators then settleRegions s ((countFrom (12 * d) 12).map rowRegion) else s
    (countFrom (156 * d) 156).foldl (fun s p => modCore s p fun c =>
      if c.state = .idle then { c with hasBank := true } else c) s

/-- DIE_READY (R464). -/
def execDieReady (die : DieReady) (s : State) : Host.Outcome State Fault Refusal :=
  let d := die.die.val
  let failed := (die.failed.map (·.val)).filter fun row => row / 12 = d
  .next (if Table.look s.boot.dieReset 0 d ≠ 0 then readyDie s d failed else s)

/-- The steward stops: it lets the PMBus go (R403). -/
def releaseBus (s : State) : State := { odSet s (od 0x2800 9) 0 with pins := { s.pins with pmbOwnN := true } }

/-- STEWARD_WATCHDOG (R320, R403): the steward restarts, after its watchdog has expired or a read of its SRAM was uncorrectable
(Table 12.1), and the device is FAULTED with cause 0x15; or it cannot restart, and the device serves and votes no more. -/
def execStewardWatchdog (restarts : Bool) (s : State) : Host.Outcome State Fault Refusal :=
  .next (
    if !s.boot.runningFirmware then s
    else if restarts then raiseLoss (releaseBus s) 0x15 kindSteward 0 0
    else { releaseBus s with boot := { s.boot with runningFirmware := false } })

/-- RING_PORT_LINK_CHANGE (R364): 0 no link, 1 1000BASE-X, 2 SGMII. A port set to one mode takes no other. -/
def execRingPortLinkChange (port : Bool) (mode : Fin 3) (s : State) : Host.Outcome State Fault Refusal :=
  let want := odGet s (od 0x1100 5)
  .next (
    if !bitAt (odGet s (od 0x2420 1)) 2 || (mode.val ≠ 0 && want ≠ 0 && want ≠ mode.val) then s
    else odSet s (od 0x1100 (if port then 4 else 3)) mode.val)

end Sys2Proof.Machine
end

