-- ==== Sys2Proof/Machine/Readout.lean ====
section
/-! DEFINITION. What each object of the dictionary reads as: stored values, and values shown from the device's own state
(R356 to R358, R377, R397 and the object tables of every chapter). -/

namespace Sys2Proof.Machine

/-- ASCII bytes of a string of up to 255 characters (OD 1000.08). -/
def productName : Bytes := "Usinaoz Gloeb G9".toList.map fun c => BitVec.ofNat 8 c.toNat

/-- Identity objects (Table 0.2), fused. -/
def identityValue (s : State) (sub : Nat) : Option Nat :=
  match sub with
  | 2 => some s.fuses.orderingCode.toNat
  | 3 => some s.fuses.stepping.toNat
  | 4 => some s.fuses.stackGiB.toNat
  | 5 => some s.fuses.serial.toNat
  | _ => none

/-- Journal control objects (Table 14.13). -/
def journalValue (s : State) (sub : Nat) : Nat :=
  match sub with
  | 1 => s.dict.entries % 2 ^ 32
  | 2 => (s.dict.entries - 4096) % 2 ^ 32
  | 3 => s.dict.entries % 2 ^ 64
  | _ => (s.dict.pendingPost.length + (s.dict.latch.filter fun x => !s.dict.pendingPost.contains x.1).length) % 65536

/-- Fired entries with kind not 0 (OD 2008.02). -/
def contextsInUse (s : State) : Nat :=
  if contextRegion s then ((countFrom 0 4096).filter fun c => (readEntry (firedEntry s c)).kind ≠ 0).length else 0

/-- Intervals of 16,384 ticks in the current HOLDOVER (OD 2400.0C). -/
def holdoverIntervals (s : State) : Nat :=
  if discipline s = dsHoldover then (now s - s.time.holdoverAt) / 16384 % 65536 else 0

/-- A word of a core's region descriptors (OD 3nnn.80 to 3nnn.FF). -/
def regionWord (c : Core) (i : Nat) : Nat :=
  let v := putBits (putBits (Table.look c.regions 0 (i / 2)).toNat 90 84 0) 47 0 0
  bits v (64 * (i % 2) + 63) (64 * (i % 2))

/-- Logical core objects that show the core's own state (Tables 2.3, 3.12, 5.4, 6.9). -/
def coreValue (s : State) (n sub : Nat) : Option Nat :=
  let c := coreOf s n
  if sub = 1 then some (physOf s n)
  else if sub = 2 then some c.state.code
  else if sub = 3 then some (flag c.bank)
  else if sub = 0x20 then some c.powered.toNat
  else if sub = 0x24 then some c.regionCount
  else if sub = 0x31 then some c.inFlight.toNat
  else if sub = 0x32 then some c.done.toNat
  else if 0x80 ≤ sub then some (regionWord c (sub - 0x80))
  else none

/-- Cargo entry objects (Table 15.7). -/
def cargoValue (s : State) (e sub : Nat) : Nat :=
  let x := getCargo s e
  match sub with
  | 1 => x.state
  | 2 => x.base
  | 3 => x.pages
  | 4 => x.matchedPages
  | 6 => x.content.toNat
  | 7 => x.publisher
  | _ => x.damaged

/-- Smallest window now held (OD 3905.03). -/
def smallestWindow (s : State) : Nat := s.fabric.windows.foldl (fun m w => min m w.2.limit) 64

/-- The scalar objects that show other state of the device, none for one that is stored. -/
def shownValue (s : State) (id : Nat) : Option Nat :=
  let index := id / 256
  let sub := id % 256
  if index = 0x1000 then identityValue s sub
  else if index = 0x1200 then some (journalValue s sub)
  else if 0x1280 ≤ index && index < 0x1300 then some (journalWord s ((index - 0x1280) * 32 + sub / 8) (sub % 8))
  else if id = od 0x2008 2 then some (contextsInUse s)
  else if id = od 0x2400 1 then some (now s)
  else if 0x2440 ≤ index && index < 0x245F && sub = 1 && !isRowRegion (index - 0x2440) then some 0xFF
  else if id = od 0x2400 0x0C then some (holdoverIntervals s)
  else if 0x3000 ≤ index && index < 0x3120 then coreValue s (index - 0x3000) sub
  else if 0x3400 ≤ index && index < 0x3418 && 0x10 ≤ sub && sub ≤ 0x1C then
    some (getCore s (13 * (index - 0x3400) + (sub - 0x10))).state.code
  else if 0x3800 ≤ index && index < 0x3830 && sub = 0x1B then some (recentFailures s (getLink s (index - 0x3800))).length
  else if id = od 0x3905 3 then some (smallestWindow s)
  else if 0x2840 ≤ index && index < 0x285F && sub = 3 && 0 < s.power.samples then
    some (Config.inputCurrent (index - 0x2840) s.power.samples).toNat
  else if (index = 0x4010 || index = 0x4011) && sub = 3 then some (trackerInUse s (index - 0x4010))
  else if 0x4100 ≤ index && index < 0x4118 && sub = 1 then some (flag (decide (0x4110 ≤ index)))
  else if 0x5140 ≤ index && index < 0x5180 then some (cargoValue s (index - 0x5140) sub)
  else if id = od 0x5200 4 then some (slotVersion s 0)
  else if id = od 0x5200 5 then some (slotVersion s 1)
  else if id = od 0x5200 6 then some s.fuses.floor.toNat
  else none

/-- The value that a scalar object reads as; a write-only object reads zero (Table 14.2). -/
def odRead (s : State) (r : ObjRow) (id : Nat) : Nat :=
  if r.access = .wo then 0 else ((shownValue s id).getD (odGet s id)) % 2 ^ r.type.bits

/-- Monitor delays of a region (OD 2Crr.04): 0xFFFF for a monitor that is out of service. -/
def monitorBytes (s : State) (r : Nat) : Bytes :=
  (countFrom 0 6).flatMap fun m => leBytes (if monitorServes s r m then monitorDelay s r m else 0xFFFF) 2

/-- The active bank's 56 descriptors (OD 3nnn.30). -/
def descriptorBytes (c : Core) : Bytes :=
  (countFrom (56 * flag c.bank) 56).flatMap fun i => leBytes (putBits (Table.look c.descriptors 0 i).toNat 250 238 0) 32

/-- The current routing table of an axis (OD 3901.01 to 3901.04). -/
def routeBytes (s : State) (a : Nat) : Bytes :=
  (countFrom (32 * a) 32).flatMap fun i => leBytes (Table.look s.fabric.current 0 i).toNat 2

/-- Strikes of the last 64 posts of `n` units of a kind, a byte each (OD 4402.01, OD 4402.02). -/
def strikeBytes (s : State) (kind n : Nat) : Bytes :=
  (countFrom 0 n).map fun u => BitVec.ofNat 8 (popCount (getStrikes s (unitKey kind u)).history.toNat 64)

/-- The STR and DOMAIN objects that show other state of the device, none for one that is stored. -/
def shownBytes (s : State) (id : Nat) : Option Bytes :=
  let index := id / 256
  let sub := id % 256
  if id = od 0x1000 8 then some productName
  else if 0x2C40 ≤ index && index < 0x2C5F then some (monitorBytes s (index - 0x2C40))
  else if 0x3000 ≤ index && index < 0x3120 then some (descriptorBytes (coreOf s (index - 0x3000)))
  else if id = od 0x3900 2 then some (s.fabric.downSet.flatMap fun w => leBytes w.toNat 4)
  else if index = 0x3901 then some (routeBytes s (sub - 1))
  else if 0x4000 ≤ index && index < 0x4010 then
    some ((Table.look s.ext.badLines [] (index - 0x4000)).flatMap fun a => leBytes a 8)
  else if 0x4020 ≤ index && index < 0x4028 then
    some ((Table.look s.ext.badLines [] (index - 0x4010)).flatMap fun a => leBytes a 8)
  else if id = od 0x4400 4 then some (s.escalations.flatMap fun r => leBytes r.toNat 32)
  else if id = od 0x4402 1 then some (strikeBytes s kindMesh 312)
  else if id = od 0x4402 2 then some (strikeBytes s kindModule 48)
  else if id = od 0x4800 8 then some s.observe.samples.flatten
  else if id = od 0x4C08 1 then some s.observe.log.flatten
  else if id = od 0x5000 1 then some (publicKey s)
  else if id = od 0x5000 2 then some s.fuses.certificateBytes
  else if id = od 0x5000 3 then some s.fuses.rootKeyHash
  else if id = od 0x5010 2 then some s.cargo.report
  else if 0x5140 ≤ index && index < 0x5180 then
    let x := getCargo s (index - 0x5140)
    some (if sub = 5 then x.root else x.manifest)
  else if id = od 0x5200 8 then some (slotMeasurement s 0)
  else if id = od 0x5200 9 then some (slotMeasurement s 1)
  else none

/-- The value that a STR or DOMAIN object reads as; a write-only one is empty. -/
def odReadBytes (s : State) (r : ObjRow) (id : Nat) : Bytes :=
  if r.access = .wo then [] else (shownBytes s id).getD (odGetBytes s id)

end Sys2Proof.Machine
end

