-- ==== Sys2Proof/Machine/Tables.lean ====
section
/-! DEFINITION. The loader's checks of a leg's fabric tables (Table 11.6, R280 to R283, R287, R289, R474, R475; detail
0x0600 + status of Table 19.6). -/

namespace Sys2Proof.Machine

/-- A leg's link entry, its mesh entry for a value of f, and its die-to-die entry. -/
def Leg.linkAt (l : Leg) (k e : Nat) : LinkEntry := readLinkEntry (l.tableEntry 0xA (k * 16384 + e))
def Leg.meshWord (l : Leg) (row f stop e : Nat) : Nat := l.tableEntry 0xB (((row * 13 + f) * 13 + stop) * 4096 + e)
def Leg.meshAt (l : Leg) (row f stop e : Nat) : MeshEntry := readMeshEntry (l.meshWord row f stop e)
def Leg.dieAt (l : Leg) (side e : Nat) : DieEntry := readDieEntry (l.tableEntry 0xC (side * 16384 + e))

/-- The valid entries of a link, with their numbers. -/
def Leg.validLinks (l : Leg) (k : Nat) : List (Nat × LinkEntry) :=
  ((l.heldEntries 0xA (k * 16384) 16384).map fun e => (e, l.linkAt k e)).filter fun x => x.2.valid

/-- The valid entries of a mesh stop. -/
def Leg.validMesh (l : Leg) (row f stop : Nat) : List (Nat × MeshEntry) :=
  ((l.heldEntries 0xB (((row * 13 + f) * 13 + stop) * 4096) 4096).map fun e => (e, l.meshAt row f stop e)).filter fun x => x.2.valid

/-- The valid entries of a die-to-die side. -/
def Leg.validDies (l : Leg) (side : Nat) : List (Nat × DieEntry) :=
  ((l.heldEntries 0xC (side * 16384) 16384).map fun e => (e, l.dieAt side e)).filter fun x => x.2.valid

/-- Links, die-to-die sides, and the mesh stops for every value of f (R315). -/
def allLinks : List Nat := countFrom 0 48
def allSides : List Nat := countFrom 0 6
def allStops : List (Nat × Nat × Nat) :=
  allRows.flatMap fun row => (countFrom 0 13).flatMap fun f => (countFrom 0 13).map fun stop => (row, f, stop)

/-- The stop of logical core n in its row for a value of f (R28). -/
def stopOf (n f : Nat) : Nat := if n % 12 < f then n % 12 else n % 12 + 1

/-- The leg's schedule entries. -/
def Leg.scheduleList (l : Leg) : List ScheduleEntry := (countFrom 0 l.entries).map l.scheduleAt

/-- Root cycles of a core cycle at a step (Table 9.1). -/
def stepDivider (step : Nat) : Nat := ([8, 9, 10, 12, 16] : List Nat).getD step 16

/-- The last ordinal of an entry. -/
def LinkEntry.last (e : LinkEntry) : Nat := e.first + (e.count - 1) * e.step

/-- Stage-relative tick at which an entry's last slot, cycle or interval starts. -/
def LinkEntry.lastTick (e : LinkEntry) : Nat := 4 * ordinalSlot e.detour e.last
def MeshEntry.lastTick (e : MeshEntry) : Nat := (e.first + e.count - 1) * stepDivider e.step / 8
def DieEntry.lastTick (e : DieEntry) : Nat := 4 * e.interval (e.count - 1)

/-- Does any pair of a list, the first before the second, satisfy p? -/
def anyPair {α : Type} (p : α → α → Bool) : List α → Bool
  | [] => false
  | x :: r => r.any (p x) || anyPair p r

/-- Have two link entries an ordinal in common? -/
def LinkEntry.meets (x y : LinkEntry) : Bool := (countFrom 0 x.count).any fun i => (y.baleAt (x.first + i * x.step)).isSome

/-- Do two mesh entries of one stop meet in a core cycle at an out port or a bank's outer port (R17, R112, R287)? -/
def MeshEntry.meets (params : MeshEntry → Option LinkEntry) (x y : MeshEntry) : Bool :=
  (countFrom x.first x.count).any (x.clashes params y)

/-- The link receive entry of a leg that gives a mesh entry its reduce parameters: a reduce end of that number for the core of the
entry's stop (R281). -/
def Leg.reduceEntry (l : Leg) (row f stop : Nat) (e : MeshEntry) : Option LinkEntry :=
  if e.reduce then (allLinks.map fun k => l.linkAt k e.edge).find? fun p =>
    p.valid && p.receive && p.tail = 3 && p.core / 12 = row && stopOf p.core f = stop
  else none

/-- 0x30: double bookings (R17, R112, R287). -/
def Leg.doubleBooking (l : Leg) : Bool :=
  allLinks.any (fun k => anyPair (fun x y =>
    !x.2.receive && !y.2.receive && x.2.detour = y.2.detour && (!x.2.detour || x.2.covered = y.2.covered) && x.2.meets y.2)
    (l.validLinks k))
  || allStops.any (fun p => anyPair (fun x y => x.2.meets (l.reduceEntry p.1 p.2.1 p.2.2) y.2) (l.validMesh p.1 p.2.1 p.2.2))
  || allSides.any (fun k => anyPair (fun x y =>
    !x.2.receive && !y.2.receive && x.2.module = y.2.module && x.2.first ≤ y.2.interval (y.2.count - 1)
      && y.2.first ≤ x.2.interval (x.2.count - 1)) (l.validDies k))

/-- Does some entry's last slot, cycle or interval start at or after a tick that the schedule bounds? -/
def Leg.reaches (l : Leg) (bound : ScheduleEntry → Nat) : Bool :=
  let meets (t : Nat) : Bool := l.scheduleList.any fun e => bound e ≤ t
  allLinks.any (fun k => (l.validLinks k).any fun x => meets x.2.lastTick)
  || allStops.any (fun p => (l.validMesh p.1 p.2.1 p.2.2).any fun x => meets x.2.lastTick)
  || allSides.any (fun k => (l.validDies k).any fun x => meets x.2.lastTick)

/-- 0x33: a reserved value in an entry (Tables 11.2 to 11.4). -/
def LinkEntry.reserved (e : LinkEntry) : Bool :=
  if !e.receive then 3 ≤ e.tail || (e.tail = 0 && 288 ≤ e.core)
  else 4 ≤ e.tail || (e.tail = 3 && (2 ≤ e.input || 5 ≤ e.output)) || (e.tail = 2 && 24 ≤ e.engine)
    || ((e.tail = 1 || e.tail = 3) && 288 ≤ e.core)

/-- Reserved values of a mesh entry's word. -/
def meshReserved (v : Nat) : Bool :=
  5 ≤ bits v 126 124 || 6 ≤ bits v 123 121 || 6 ≤ bits v 120 118 || (bits v 120 118 = 4 && 2 ≤ bits v 54 52)

/-- Reserved values of a die-to-die entry. -/
def DieEntry.reserved (e : DieEntry) (side : Nat) : Bool :=
  (2 ≤ side && 8 ≤ e.module) || 4 ≤ e.far || (e.far = 2 && (e.engine < 16 || 24 ≤ e.engine))

/-- Does any table hold a reserved value? -/
def Leg.reservedEntry (l : Leg) : Bool :=
  allLinks.any (fun k => (l.validLinks k).any fun x => x.2.reserved)
  || allStops.any (fun p => (l.validMesh p.1 p.2.1 p.2.2).any fun x => meshReserved (l.meshWord p.1 p.2.1 p.2.2 x.1))
  || allSides.any (fun k => (l.validDies k).any fun x => x.2.reserved k)

/-- Port die of a link: links 0 to 23 on Q0. -/
def portDie (l : Nat) : Nat := l / 24

/-- 0x34: a member entry that breaks R283's rules with its leader. -/
def Leg.badGroup (s : State) (l : Leg) : Bool :=
  allLinks.any fun k => (l.validLinks k).any fun x =>
    let e := x.2
    let h := l.linkAt e.joinLink e.joinEntry
    !e.receive && e.tail = 2 && h.valid && (h.receive || 2 ≤ h.tail || h.detour ≠ e.detour || axisOf s k ≠ axisOf s e.joinLink
      || portDie k ≠ portDie e.joinLink || h.first ≠ e.first || h.step ≠ e.step || h.count ≠ e.count)

/-- Waybill bits that ends name: core, bit, and the byte range written. -/
structure EndBit where
  core : Nat
  bit : Nat
  address : Nat
  length : Nat
  deriving DecidableEq, Repr

/-- Deliver and reduce ends of the link tables. -/
def Leg.linkEnds (l : Leg) : List EndBit :=
  allLinks.flatMap fun k => ((l.validLinks k).filter fun x => x.2.receive && (x.2.tail = 1 || x.2.tail = 3)).map fun x =>
    ⟨x.2.core, x.2.waybill, x.2.address, 144 * x.2.count⟩

/-- Mesh ends of a variant for one value of f in every row. -/
def Leg.meshEnds (l : Leg) (step f : Nat) : List EndBit :=
  allCores.flatMap fun n =>
    ((l.validMesh (n / 12) f (stopOf n f)).filter fun x => x.2.step = step && x.2.output = 4).map fun x =>
      ⟨n, x.2.waybill, x.2.address, 128 * x.2.count⟩

/-- Intake points of a stage-table index. -/
def Leg.intakeEnds (l : Leg) (i : Nat) : List EndBit := (l.intakePoints i).map fun p => ⟨p.core, p.waybill, p.address, 0⟩

/-- Do two ends name one bit of one core? -/
def EndBit.same (x y : EndBit) : Bool := x.core = y.core && x.bit = y.bit

/-- 0x35: a waybill bit named twice in a stage (R282). A mesh end whose bytes lie in a link end's range is that
consignment's last step on the device, not a second end (log entry 31). -/
def Leg.bitTwice (l : Leg) : Bool :=
  let links := l.linkEnds
  let apart (x y : EndBit) : Bool := x.same y && !(x.address ≤ y.address && y.address < x.address + x.length)
  anyPair EndBit.same links
  || (countFrom 0 5).any (fun k => (countFrom 0 13).any fun f =>
    let mesh := l.meshEnds k f
    anyPair EndBit.same mesh || links.any fun x => mesh.any (apart x))
  || (countFrom 0 255).any fun i =>
    let points := l.intakeEnds i
    anyPair EndBit.same points || points.any fun x => links.any x.same || (countFrom 0 5).any fun k =>
      (countFrom 0 13).any fun f => (l.meshEnds k f).any x.same

/-- A forward or member entry whose joined entry does not match it. -/
def Leg.badJoin (l : Leg) : Bool :=
  allLinks.any fun k => (l.validLinks k).any fun x =>
    let e := x.2
    let j := l.linkAt e.joinLink e.joinEntry
    if !e.receive && e.tail = 1 then !(j.valid && j.receive && j.tail = 0 && j.count = e.count)
    else if !e.receive && e.tail = 2 then !j.valid
    else if e.receive && e.tail = 0 then !(j.valid && !j.receive && j.tail = 1 && j.count = e.count)
    else false

/-- Does the flow through a mesh entry of a stop start at an entry with in 4 that reads the core and address: by way of the
first entry that feeds its in port, and so on, n hops at most (R281)? -/
def Leg.startsAt (l : Leg) (f core address : Nat) : Nat → Nat → Nat → MeshEntry → Bool
  | 0, _, _, _ => false
  | n + 1, row, stop, e =>
    if e.input = portOwn then row = core / 12 && stop = stopOf core f && e.address = address
    else match feeder row stop e.input with
      | none => false
      | some (r, q, out) =>
        let fed := (l.validMesh r f q).filter fun x => x.2.step = e.step && x.2.output = out && x.2.first < e.first
        match fed.foldl (fun m x => match m with
          | none => some x.2
          | some y => if y.first < x.2.first then some x.2 else m) none with
        | some x => l.startsAt f core address n r q x
        | none => false

/-- The first of the receive entries of a side that join a link entry (far 1), by interval. -/
def Leg.firstJoined (l : Leg) (side link entry : Nat) : Option Nat :=
  (((l.validDies side).filter fun x => x.2.receive && x.2.far = 1 && x.2.link = link && x.2.entry = entry).foldl
    (fun m x => match m with
      | none => some x
      | some y => if x.2.first < y.2.first then some x else m) none).map (·.1)

/-- Does the send entry j of a plan die's side take its first unit from a mesh entry that starts at the core and address, or by a
pass-through from the die's other side? -/
def Leg.feeds (l : Leg) (step f core address side j : Nat) : Bool :=
  let atEdge (side j : Nat) : Bool := (countFrom 0 24).any fun row => (countFrom 0 13).any fun stop =>
    edgeSide row stop = some side && (l.validMesh row f stop).any fun x =>
      x.2.step = step && x.2.output = portEdge && x.2.edge = j && l.startsAt f core address 40 row stop x.2
  atEdge side j || (match otherSide side with
    | none => false
    | some o => (l.validDies o).any fun x => x.2.receive && x.2.far = 3 && x.2.entry = j && atEdge (farSide o) x.1)

/-- A local source whose stream does not start at a mesh entry with in 4 that reads its core at its address, for some value of f
and some variant (R281). -/
def Leg.badSource (l : Leg) : Bool :=
  allLinks.any fun k => (l.validLinks k).any fun x =>
    let e := x.2
    !e.receive && e.tail = 0 && (match l.firstJoined (portSide k) k x.1 with
      | none => !e.detour
      | some j => ((countFrom 0 5).filter l.variant).any fun step => (countFrom 0 13).any fun f =>
          !(l.feeds step f e.core e.address (farSide (portSide k)) j))

/-- What a variant's mesh entries join for a value of f: die-to-die entries, by side, and link entries, by the reducing stop. -/
def Leg.edgesOf (l : Leg) (f step : Nat) : List (Nat × Nat) :=
  (allStops.filter (·.2.1 = f)).flatMap fun p => (l.validMesh p.1 f p.2.2).flatMap fun x =>
    if x.2.step ≠ step then []
    else
      (match edgeSide p.1 p.2.2 with
        | some side => if x.2.input = portEdge || x.2.output = portEdge then [(side, x.2.edge)] else []
        | none => [])
      ++ (if x.2.reduce then [(16 + 13 * p.1 + p.2.2, x.2.edge)] else [])

/-- Do the variants' mesh entries join different die-to-die or link entries (R474)? -/
def Leg.variantsDisagree (l : Leg) : Bool :=
  (countFrom 0 13).any fun f =>
    let base := l.edgesOf f l.compiledStep
    ((countFrom 0 5).filter l.variant).any fun k =>
      let other := l.edgesOf f k
      !(base.all other.contains && other.all base.contains)

/-- A mesh or die-to-die edge that joins no entry: an edge stop's out port names a send entry of its side, a receive
entry with far 0 a mesh entry of its edge stop, one with far 1 a transmit entry with a local source, one with far 3 a
send entry of the other side. -/
def Leg.badEdge (l : Leg) : Bool :=
  allStops.any (fun p => (l.validMesh p.1 p.2.1 p.2.2).any fun x =>
    match edgeSide p.1 p.2.2 with
    | some side => x.2.output = 5 && !((l.dieAt side x.2.edge).valid && !(l.dieAt side x.2.edge).receive)
    | none => false)
  || allSides.any fun side => (l.validDies side).any fun x =>
    let e := x.2
    e.receive && (match e.far with
      | 0 => (match sideStop side e.row with
        | some (row, stop) => (countFrom 0 13).any fun f => !(l.meshAt row f stop e.entry).valid
        | none => true)
      | 1 =>
        let j := l.linkAt e.link e.entry
        !(j.valid && !j.receive && j.tail = 0)
      | 3 => (match otherSide side with
        | some o => !((l.dieAt o e.entry).valid && !(l.dieAt o e.entry).receive)
        | none => true)
      | _ => false)

/-- 0x36: joined entries disagree. -/
def Leg.joinedWrong (l : Leg) : Bool := l.badJoin || l.badSource || l.badEdge || l.variantsDisagree

/-- A plan transmit entry without a complete detour: the detour entries of its link that carry its bales over other links, with those
of the plan entries of the same source and destination, do not carry as many (R289). -/
def Leg.noDetour (l : Leg) : Bool :=
  let sends := allLinks.flatMap fun k => ((l.validLinks k).filter fun x => !x.2.receive).map fun x => (k, x.2)
  let bales (p : Nat × LinkEntry → Bool) : Nat := (sends.filter p).foldl (fun t x => t + x.2.count) 0
  sends.any fun x => !x.2.detour
    && bales (fun y => y.2.detour && y.1 ≠ x.1 && y.2.covered = x.1 && y.2.sameBales l.linkAt x.2)
      < bales (fun y => !y.2.detour && y.1 = x.1 && y.2.sameBales l.linkAt x.2)

/-- Earliest tick of the onward move of bale i of receive entry e, whose slot starts at tick t (R475). -/
def Leg.onwardFrom (l : Leg) (link e t : Nat) : Nat :=
  t + l.latencyCap + 48 + (2 * l.latencyCap + 352) + 24 + Config.relayAllowance l.legHash link e

/-- The booked onward moves of bale i of a receive entry: the next link hop, or the die-to-die send entry that names the
link entry (far 1) and holds the first unit of the bale in the stream; ticks from the stage start. -/
def Leg.onwardMoves (l : Leg) (link e : Nat) (x : LinkEntry) (i : Nat) : List Nat :=
  if x.tail = 0 then
    let j := l.linkAt x.joinLink x.joinEntry
    [4 * ordinalSlot j.detour (j.first + i * j.step)]
  else
    let joined := (l.validDies (portSide link)).filter fun y => !y.2.receive && y.2.far = 1 && y.2.link = link && y.2.entry = e
    joined.flatMap fun y => ((countFrom 0 y.2.count).filter fun v => streamPlace joined y.1 y.2 v = 144 * i / 128).map fun v =>
      4 * y.2.interval v

/-- Do the relay allowances of the path that ends at a receive entry add up to less than 2a_r, a_r = 4Δ + ⌈λ_cap⌉ (R278, R475)? -/
def Leg.allowanceShort (l : Leg) (link e : Nat) : Bool :=
  let delay := 32 * ((l.latencyCap + 48 + (2 * l.latencyCap + 352) + 8 + 127) / 128)
  Config.relayAllowance l.legHash link e + Config.otherAllowances l.legHash link e < 2 * (4 * delay + l.latencyCap)

/-- An onward move earlier than R475 allows, or a path whose allowances are short. -/
def Leg.onwardEarly (l : Leg) : Bool :=
  allLinks.any fun k => (l.validLinks k).any fun x =>
    x.2.receive && ((x.2.tail ≠ 0 && l.allowanceShort k x.1) || (countFrom 0 x.2.count).any fun i =>
      let t := 4 * ordinalSlot x.2.detour (x.2.first + i * x.2.step)
      (l.onwardMoves k x.1 x.2 i).any fun m => m < l.onwardFrom k x.1 t)

/-- The mesh entries of a stop at the compiled step. -/
def Leg.compiledMesh (l : Leg) (row f stop : Nat) : List MeshEntry :=
  ((l.validMesh row f stop).map (·.2)).filter fun x => x.step = l.compiledStep

/-- Is something taken before as many have arrived? Both lists give times in one unit, in any order. -/
def takenEarly (takes arrivals : List Nat) : Bool :=
  takes.any fun t => (arrivals.filter (· ≤ t)).length < (takes.filter (· ≤ t)).length

/-- Core cycles in which a mesh entry's flits move, and those in which they are at the next stop (Table 11.5). -/
def MeshEntry.cycles (e : MeshEntry) : List Nat := countFrom e.first e.count
def MeshEntry.arrivals (e : MeshEntry) (hop : Nat) : List Nat := e.cycles.map (· + e.sourceCycles + hop)

/-- Ticks at which the units of a die-to-die entry move. -/
def DieEntry.ticks (e : DieEntry) : List Nat := (countFrom 0 e.count).map fun i => 4 * e.interval i

/-- Does a stop take flits at one of its in ports before they can be there: 2 core cycles in a row, 6 between rows (Table 11.5)?
The rows' skip columns are f and, in the row beside it, g. -/
def Leg.hopEarly (l : Leg) (row f g stop : Nat) : Bool :=
  (countFrom 0 4).any fun port => match feeder row stop port with
    | none => false
    | some (r, q, out) =>
      takenEarly (((l.compiledMesh row f stop).filter (·.input = port)).flatMap (·.cycles))
        (((l.compiledMesh r (if r = row then f else g) q).filter (·.output = out)).flatMap fun y => y.arrivals (if r = row then 2 else 6))

/-- Does a stop at the edge of a plan die take flits of its side before they can be there: 48 ticks, and 6 core cycles at S0? -/
def Leg.edgeEarly (l : Leg) (row f stop : Nat) : Bool := match edgeSide row stop with
  | none => false
  | some side =>
    takenEarly (((l.compiledMesh row f stop).filter (·.input = portEdge)).flatMap (·.cycles))
      (((l.validDies side).filter fun x => x.2.receive && x.2.far = 0 && sideStop side x.2.row = some (row, stop)).flatMap
        fun x => x.2.ticks.map (· + 54))

/-- Does a send entry of a plan die's side move units before they can be there: from the mesh, 6 core cycles at S0, for one value
of f, or by a pass-through from the die's other side? The mesh crosses to the edge at S0 alone. -/
def Leg.sendEarly (l : Leg) (f side j : Nat) (e : DieEntry) : Bool :=
  let mesh := (countFrom 0 24).flatMap fun row => (countFrom 0 13).flatMap fun stop =>
    if edgeSide row stop = some side then
      ((l.compiledMesh row f stop).filter fun x => x.output = portEdge && x.edge = j).flatMap (·.arrivals 6)
    else []
  let passed := match otherSide side with
    | none => []
    | some o => ((l.validDies o).filter fun x => x.2.receive && x.2.far = 3 && x.2.entry = j).flatMap fun x => x.2.ticks.map (· + 48)
  if l.compiledStep = 0 then takenEarly e.ticks (mesh ++ passed) else mesh.isEmpty && takenEarly e.ticks passed

/-- Does a local source send a bale before the units that fill it can be at the port? -/
def Leg.sourceEarly (l : Leg) (link e : Nat) (x : LinkEntry) : Bool :=
  let arrivals := ((l.validDies (portSide link)).filter fun y => y.2.receive && y.2.far = 1 && y.2.link = link && y.2.entry = e).flatMap
    fun y => y.2.ticks.map (· + 48)
  (countFrom 0 x.count).any fun i =>
    let t := 4 * ordinalSlot x.detour (x.first + i * x.step)
    (arrivals.filter (· ≤ t)).length < min arrivals.length ((144 * (i + 1) + 127) / 128)

/-- An on-device step earlier than Table 11.5 allows, at the compiled step (R475). What crosses to the die's edge is held to it at S0
alone, since below it interlocks (R224); sides 3 and 5 are the port dies', whose send entries follow their links. -/
def Leg.stepEarly (l : Leg) : Bool :=
  allStops.any (fun p => (countFrom 0 13).any fun g => l.hopEarly p.1 p.2.1 g p.2.2)
  || (l.compiledStep = 0 && allStops.any (fun p => l.edgeEarly p.1 p.2.1 p.2.2))
  || ([0, 1, 2, 4] : List Nat).any (fun side => (l.validDies side).any fun x =>
    !x.2.receive && (countFrom 0 13).any fun f => l.sendEarly f side x.1 x.2)
  || allLinks.any fun k => (l.validLinks k).any fun x => !x.2.receive && x.2.tail = 0 && l.sourceEarly k x.1 x.2

/-- Would a substitution list relay through a spare that itself holds a logical address (R277)? Two spares that stand in
one line of the spare slice are such a case. -/
def relayConflict (s : State) (subs : List Nat) : Bool :=
  match spareAxis s with
  | none => false
  | some a => anyPair (fun x y => ((countFrom 0 4).filter fun b => b ≠ a && onAxis x b ≠ onAxis y b).length = 1) subs

/-- The status of Table 11.6 that a leg's tables give, lowest first; none where they pass. -/
def Leg.tableStatus (s : State) (l : Leg) : Option Nat :=
  if l.doubleBooking then some 0x30
  else if l.reaches (·.length) then some 0x31
  else if l.reaches (fun e => e.length - e.rest) then some 0x32
  else if l.reservedEntry then some 0x33
  else if l.badGroup s then some 0x34
  else if l.bitTwice then some 0x35
  else if l.joinedWrong then some 0x36
  else if l.noDetour || l.onwardEarly || l.stepEarly then some 0x37
  else if relayConflict s (substitutions s) then some 0x38
  else none

end Sys2Proof.Machine
end

