-- ==== Sys2Proof/Machine/Check.lean ====
section
/-! DEFINITION. The loader's checks of a leg image, in the order of Table 19.6 (R3, R5, R117, R143, R150, R163, R168,
R175, R196, R198, R337, R340, R347, R392, R400, R468 to R476). Each is a Bool that says whether the image passes. -/

namespace Sys2Proof.Machine

/-- Bytes of a region of the image that are all zero. -/
def Leg.zero (l : Leg) (a n : Nat) : Bool := l.word a n = 0

/-- 0x0101: magic, format byte, zero fields and ranges of the header (R468, Table 19.2, R196). -/
def Leg.headerGood (l : Leg) : Bool :=
  256 ≤ l.length && l.word 0 4 = 0x01493947 && l.word 4 1 = 1
    && (l.stepping = 0xA1 || l.stepping = 0xB0) && l.compiledStep ≤ 4
    && 1 ≤ l.role && l.role ≤ 4 && (l.word 9 1 = 3 || l.word 9 1 = 4) && (l.word 10 1 ≤ 3 || l.word 10 1 = 0xFF)
    && l.zero 11 1 && l.zero 158 2 && l.zero 224 32 && l.balanceSafe ≤ 1

/-- 0x0102: the device accepts the image format (R400, OD 5300.03, OD 5300.04). -/
def Leg.formatGood (s : State) (l : Leg) : Bool :=
  odGet s (od 0x5300 4) ≤ l.word 4 1 && l.word 4 1 ≤ odGet s (od 0x5300 3)

/-- Length of the contents of a section kind, where Table 19.3 fixes it; the least length of others. -/
def sectionLength (kind : Nat) : Option Nat :=
  match kind with
  | 0x03 => some 256
  | 0x04 => some 64
  | 0x06 => some (288 * 2 * bankImageBytes)
  | 0x07 => some (288 * 64 * 16)
  | 0x0A => some (48 * 16384 * 16)
  | 0x0B => some (24 * 13 * 13 * 4096 * 16)
  | 0x0C => some (6 * 16384 * 16)
  | 0x0E => some 48
  | _ => none

/-- Line length of axis a and spare axis, as the image gives them; logical coordinates on axis a (R276, R471). -/
def Leg.lineOf (l : Leg) (a : Nat) : Nat := bits (l.word 12 4) (5 * a + 4) (5 * a)
def Leg.logicalLine (l : Leg) (a : Nat) : Nat := if l.word 10 1 = a then l.lineOf a - 1 else l.lineOf a

/-- Logical addresses of the domain, and the rank of the own address among them in ascending order (R470). -/
def Leg.domainSize (l : Leg) : Nat := (countFrom 0 (l.word 9 1)).foldl (fun m a => m * l.logicalLine a) 1
def Leg.ownRank (l : Leg) : Nat :=
  (countFrom 0 (l.word 9 1)).foldl (fun r a =>
    r + onAxis l.ownAddress a * (countFrom 0 a).foldl (fun m b => m * l.logicalLine b) 1) 0

/-- Is one directory entry valid (R469, Table 19.3)? -/
def Leg.sectionGood (l : Leg) (i : Nat) : Bool :=
  let e := l.entry i
  let byStepping := e.kind = 0x04 || e.kind = 0x06
  l.zero (256 + 32 * i + 3) 5 && l.zero (256 + 32 * i + 24) 8 && e.offset % 64 = 0 && 256 ≤ e.offset
    && e.offset + e.length ≤ l.length && 1 ≤ e.kind && e.kind ≤ 0xE
    && (if byStepping then e.tag = 0xA1 || e.tag = 0xB0 else e.tag = 0)
    && (match sectionLength e.kind with
      | some n => e.length = n
      | none =>
        if e.kind = 0x01 then e.length = 32 * l.domainSize
        else if e.kind = 0x02 then e.length % 16 = 0
        else if e.kind = 0x09 then e.length % 16 = 0 && e.length ≤ 4096
        else if e.kind = 0x0D then e.length % 32 = 0
        else true)

/-- Do two directory entries collide: by place, or by kind and tag? -/
def Section.collides (x y : Section) : Bool :=
  (x.kind = y.kind && x.tag = y.tag) || (x.offset < y.offset + y.length && y.offset < x.offset + x.length)

/-- 0x0103: the directory (R469, R315). -/
def Leg.directoryGood (l : Leg) : Bool :=
  let d := l.directory
  256 + 32 * d.length ≤ l.length
    && (countFrom 0 d.length).all l.sectionGood && !anyPair Section.collides d
    && ([0x01, 0x02, 0x03, 0x05, 0x06, 0x07, 0x0B] : List Nat).all (fun k => d.any fun e => e.kind = k)
    && (d.filter fun e => e.kind = 0x06).all (fun e => d.any fun x => x.kind = 0x04 && x.tag = e.tag) && l.has 0x06

/-- A patch record (Table 19.4). -/
structure PatchRecord where
  site : Nat
  kind : Nat
  lsb : Nat
  width : Nat
  base : Nat
  shift : Nat
  zero : Bool
  deriving DecidableEq, Repr

/-- The patch records of an image. -/
def Leg.patches (l : Leg) : List PatchRecord :=
  match l.part 0x02 with
  | none => []
  | some e => (countFrom 0 (e.length / 16)).map fun i =>
    let a := e.offset + 16 * i
    { site := l.word a 8, kind := l.word (a + 8) 1, lsb := l.word (a + 9) 1, width := l.word (a + 10) 1
      base := l.word (a + 11) 1, shift := l.word (a + 12) 1, zero := l.zero (a + 13) 3 }

/-- First bit of a record's field, counted from the image's first bit. -/
def PatchRecord.first (r : PatchRecord) : Nat := 8 * r.site + r.lsb

/-- Do the bits of a record's field touch a section? -/
def PatchRecord.inSection (r : PatchRecord) (e : Section) : Bool :=
  r.first < 8 * (e.offset + e.length) && 8 * e.offset < r.first + r.width

/-- Is one record valid (R471)? -/
def Leg.patchGood (l : Leg) (r : PatchRecord) : Bool :=
  r.site + 8 ≤ l.length && 1 ≤ r.width && r.lsb + r.width ≤ 64 && r.zero
    && (match r.kind with
      | 1 => r.base ≤ 31 && r.shift ≤ 16
      | 2 => r.base = 0 && r.shift = 0 && r.width = 20
      | 3 => r.base = 0 && r.shift = 0 && r.first = 40 && r.width = 8
      | 4 => r.base = 0 && r.shift = 0 && r.first = 128 && r.width = 20
      | _ => false)
    && !((l.directory.filter fun e => 1 ≤ e.kind && e.kind ≤ 3).any r.inSection)

/-- 0x0104: patch records valid and not overlapping. -/
def Leg.patchesGood (l : Leg) : Bool :=
  l.patches.all l.patchGood
    && !anyPair (fun x y => x.first < y.first + y.width && y.first < x.first + x.width) l.patches

/-- Bits of byte i of the image that lie in a patch-site field. -/
def Leg.patchMask (l : Leg) (i : Nat) : Byte :=
  BitVec.ofNat 8 (((countFrom 0 8).filter fun j =>
    l.patches.any fun r => r.first ≤ 8 * i + j && 8 * i + j < r.first + r.width).foldl (fun m j => m + 2 ^ j) 0)

/-- The bytes that the leg hash covers, with its three parts read as zero (R470). -/
def Leg.hashedBytes (l : Leg) : Bytes :=
  (countFrom 0 l.length).map fun i =>
    let inBases := l.directory.any fun e => e.kind = 3 && e.offset ≤ i && i < e.offset + e.length
    if (64 ≤ i && i < 96) || inBases then 0 else Table.look l.img 0 i &&& ~~~(l.patchMask i)

/-- The leg hash as computed (R470). -/
def Leg.computedHash (l : Leg) : Bytes := sha256 l.hashedBytes

/-- 0x0106: the itinerary hash, and the own entry of the list (R470). -/
def Leg.itineraryGood (l : Leg) : Bool :=
  match l.part 0x01 with
  | none => false
  | some e => sha256 (Memory.read l.img 0 e.offset e.length) = l.itineraryHash && 32 * l.ownRank + 32 ≤ e.length
    && Memory.read l.img 0 (e.offset + 32 * l.ownRank) 32 = l.legHash

/-- 0x0107: the own address, the shape, and λ_cap (R14). -/
def Leg.addressGood (s : State) (l : Leg) : Bool :=
  l.ownAddress = logicalAddress s && l.word 9 1 = odGet s (od 0x3A00 3) && l.word 12 4 = odGet s (od 0x3A00 4)
    && l.word 10 1 = odGet s (od 0x3A00 5) && 1 ≤ l.latencyCap && l.latencyCap ≤ 1024

/-- Does the leg's stepping differ from the device's (R472)? -/
def Leg.otherStepping (s : State) (l : Leg) : Bool := l.stepping ≠ s.fuses.stepping.toNat

/-- 0x0201: the stepping, under OD 2100.01. -/
def Leg.steppingGood (s : State) (l : Leg) : Bool := !l.otherStepping s || odGet s (od 0x2100 1) = 1

/-- The 17 rows of Table 2.10, by stepping. -/
def latencyRows (stepping : Nat) : List Nat :=
  if stepping = 0xB0 then [1, 3, 1, 3, 2, 4, 3, 5, 3, 10, 7, 9, 4, 3, 6, 3, 2]
  else [1, 3, 1, 4, 2, 4, 4, 6, 3, 12, 9, 11, 5, 3, 8, 4, 2]

/-- 0x0202: the latency table (R472). -/
def Leg.latenciesGood (l : Leg) : Bool :=
  let a := l.offsetOf 0x04
  (countFrom 0 17).all (fun i => l.word (a + i) 1 = (latencyRows l.stepping).getD i 0) && l.zero (a + 17) 47

/-- 0x0203: the variant mask holds the compiled step, at most two slower ones and no faster one (R474). -/
def Leg.variantsGood (l : Leg) : Bool :=
  l.variantMask ≤ 0x1F && l.variant l.compiledStep && popCount l.variantMask 5 ≤ 3
    && (countFrom 0 l.compiledStep).all fun k => !l.variant k

/-- Bank homes that the steward installs on each plan die (R476). -/
def bankHomeBytes : Nat := 38559744

/-- 0x0301: the footprints (R3, R468). -/
def Leg.footprintGood (s : State) (l : Leg) : Bool :=
  l.footprint 0 + bankHomeBytes ≤ 8 * stackBytes s && l.footprint 1 + bankHomeBytes ≤ 8 * stackBytes s
    && l.footprint 2 ≤ 4 * lpUsable s 0 && l.footprint 3 ≤ 4 * lpUsable s 4

/-- The resident slots other than the one that is loaded. -/
def otherResidents (s : State) (slot : Nat) : List Nat := (setBits (odGet s (od 0x2000 2)) 8).filter (· ≠ slot)

/-- 0x0302: the local shares, within the dies' memory and equal to the residents' (R143). -/
def Leg.sharesGood (s : State) (slot : Nat) (l : Leg) : Bool :=
  l.share 0 * gib ≤ stackBytes s && l.share 1 * gib ≤ stackBytes s && l.share 2 * gib ≤ lpUsable s 0
    && l.share 3 * gib ≤ lpUsable s 4
    && (otherResidents s slot).all fun k => (countFrom 0 4).all fun d => (getLeg s k).share d = l.share d

/-- A record of home contents: device-physical address and bytes (Table 19.3, kind 0x08). -/
def Leg.homeRecordsFrom (l : Leg) (stop : Nat) : Nat → Nat → List (Nat × Bytes)
  | 0, _ => []
  | n + 1, a =>
    if stop < a + 16 then []
    else
      let length := l.word (a + 8) 8
      (l.word a 8, Memory.read l.img 0 (a + 16) (min length (stop - (a + 16))))
        :: l.homeRecordsFrom stop n (a + 16 + (length + 63) / 64 * 64)

/-- The records of home contents. -/
def Leg.homeRecords (l : Leg) : List (Nat × Bytes) :=
  match l.part 0x08 with
  | none => []
  | some e => l.homeRecordsFrom (e.offset + e.length) (e.length / 16) e.offset

/-- Green regions of the residents and of the leg: those that the device has once it is loaded (R163). DESIGN CHOICE (log entry
57): the spec has no refusal for legs whose regions together exceed 256; the union is kept whole. -/
def greenUnion (s : State) (slot : Nat) (l : Leg) : List GreenRegion :=
  (((otherResidents s slot).flatMap fun k => (getLeg s k).greenRegions) ++ l.greenRegions).foldl
    (fun g r => if g.contains r then g else g ++ [r]) []

/-- The device as it would be with the leg's shares and green regions: what the checks of placement are made on. -/
def trial (s : State) (slot : Nat) (l : Leg) : State :=
  let s := (countFrom 0 4).foldl (fun s d => odSet s (od (0x4010 + d) 1) (l.share d)) s
  { s with ext := { s.ext with green := greenUnion s slot l } }

/-- 0x0303: declared placement (R168, Table 6.6): home contents are placed in mapped memory that no cargo seals, and a
weight pointer names no green page. -/
def Leg.placementGood (t : State) (l : Leg) : Bool :=
  l.homeRecords.all (fun r => r.2.length = 0 || (mappedRange t r.1 r.2.length && !touchesBack t r.1 r.2.length
    && (sealedAt t r.1 r.2.length).isNone))
  && (countFrom 0 8).all fun p => l.pointer p = 0 || !touchesGreen t (l.pointer p) 1

/-- The two frame ranges of a green region. -/
def GreenRegion.ranges (g : GreenRegion) : List (Nat × Nat) := [(g.base, 4096 * g.pages), (g.back, 4096 * g.pages)]

/-- Pages of a region behind interface i. -/
def GreenRegion.pagesAt (s : State) (g : GreenRegion) (i : Nat) : Nat :=
  ((countFrom 0 g.pages).filter fun p => (locate s (g.base + 4096 * p)).any fun x => x.iface = i).length

/-- Waystations that the leg declares as outbound. -/
def Leg.outbound (l : Leg) : List Nat := (countFrom 0 48).filter fun w => l.declares w = 2

/-- First byte of a waystation's payloads (R337). -/
def payloadBase (area w : Nat) : Nat := area + w * 0x500000 + 0x10000

/-- Is the payload range of waystation w a green region whose back range lies outside the area (R337)? -/
def payloadGreen (green : List GreenRegion) (area w : Nat) : Bool :=
  green.any fun g => g.base = payloadBase area w && g.pages = 1024
    && (g.back + 4096 * g.pages ≤ area || area + 0x10000000 ≤ g.back)

/-- 0x0304: the green regions (R163, R337); a region declared twice in one image overlaps itself. DESIGN CHOICE (log entry 57): a
region of 0 pages, which the list of refusals does not name, is refused. -/
def Leg.greenGood (t : State) (l : Leg) : Bool :=
  decide l.greenRegions.Nodup && l.greenRegions.all (fun g => 0 < g.pages && ((g.back : Int) - g.base) % 32768 = 0
    && mappedRange t g.base (4096 * g.pages) && mappedRange t g.back (4096 * g.pages)
    && (locate t g.base).map (·.window) = (locate t g.back).map (·.window))
  && !anyPair (fun x y => x.1 < y.1 + y.2 && y.1 < x.1 + x.2) (t.ext.green.flatMap (·.ranges))
  && (countFrom 0 24).all (fun i => t.ext.green.foldl (fun n g => n + g.pagesAt t i) 0 ≤ 2 ^ 20)
  && l.outbound.all (payloadGreen t.ext.green l.areaBase)

/-- 0x0305: the context region base and the context range (R198). -/
def Leg.contextGood (t : State) (slot : Nat) (l : Leg) : Bool :=
  let b := l.contextBase
  b % 65536 = 0 && mappedRange t b 0x81000 && (locate t b).any (fun p => p.window = 0)
    && l.firstContext + l.contextCount ≤ 4096
    && (otherResidents t slot).all fun k =>
      let o := getLeg t k
      o.contextBase = b && (l.firstContext + l.contextCount ≤ o.firstContext
        || o.firstContext + o.contextCount ≤ l.firstContext || l.contextCount = 0 || o.contextCount = 0)

/-- 0x0306: the waystation area base and the declared kinds (R337, R347). -/
def Leg.waystationsGood (t : State) (slot : Nat) (l : Leg) : Bool :=
  let a := l.areaBase
  a % 0x10000000 = 0 && mappedRange t a 0x10000000 && (locate t a).any (fun p => p.window = 2 || p.window = 3)
    && (countFrom 0 48).all (fun w => l.declares w = 0 || l.declares w = (if w < 32 then 1 else 2))
    && (otherResidents t slot).all fun k =>
      let o := getLeg t k
      o.areaBase = a && (countFrom 0 48).all fun w => l.declares w = 0 || o.declares w = 0 || l.declares w = o.declares w

/-- 0x0307: weight pointers on verified cargo (R392). -/
def Leg.pointersGood (s : State) (l : Leg) : Bool :=
  odGet s (od 0x5100 0x20) ≠ 1 || (countFrom 0 8).all fun p => l.pointer p = 0
    || s.cargo.entries.any fun e => e.2.state = cargoVerified && e.2.base = l.pointer p

/-- The valid regions of logical core n. -/
def Leg.validRegions (l : Leg) (n : Nat) : List ScratchRegion :=
  ((l.regionsOf n).map fun e => readRegion e.2).filter (·.valid)

/-- The scratchpad ranges of a region. -/
def ScratchRegion.ranges (r : ScratchRegion) : List (Nat × Nat) :=
  (r.base, r.size) :: (if r.mode = .green then [(r.back, r.size)] else [])

/-- Has a region a home? -/
def ScratchRegion.homed (r : ScratchRegion) : Bool := r.mode = .held || r.mode = .green

/-- 0x0401: the region descriptors of logical core n (R117, Table 5.1). -/
def Leg.regionsGood (t : State) (l : Leg) (n : Nat) : Bool :=
  let rs := l.validRegions n
  rs.all (fun r => r.mode ≠ .reserved && r.size ≠ 0 && !(r.mode = .held && r.fill)
    && r.ranges.all (fun x => x.1 + x.2 ≤ 0x600000)
    && (!r.homed || (mappedRange t r.home r.size && !touchesBack t r.home r.size))
    && (r.mode ≠ .green || (countFrom 0 (r.size / 4096)).all fun i => (greenAt t (r.home + 4096 * i)).isSome))
  && !anyPair (fun x y => x.1 < y.1 + y.2 && y.1 < x.1 + x.2) (rs.flatMap (·.ranges))

/-- 0x0402: the depot descriptors of logical core n (R150). -/
def Leg.depotsGood (l : Leg) (n : Nat) : Bool :=
  (l.descriptorsOf n).all fun e =>
    let d := readDepot e.2
    !d.valid || (!d.reserved (e.1 % 56 < 32) && 64 * d.lines ≤ 0x100000)

/-- Is an address in HBM3E behind plan die d (Table 6.2)? -/
def onPlanDie (t : State) (d a : Nat) : Bool := (locate t a).any fun p => p.iface < 16 && p.iface / 8 = d

/-- W_n of logical core n (R476). -/
def Leg.reloadWeight (t : State) (l : Leg) (n : Nat) : Nat :=
  ((l.validRegions n).filter (·.homed)).foldl (fun w r =>
    w + (if onPlanDie t (n / 144) r.home then r.size else 4 * r.size)) 267776

/-- The largest W_n (OD 211s.09). -/
def Leg.largestWeight (t : State) (l : Leg) : Nat := allCores.foldl (fun m n => max m (l.reloadWeight t n)) 0

/-- Does some bank of logical core n hold a stage-entry bundle at a stage-table index (R473)? -/
def Leg.entersStage (l : Leg) (n i : Nat) : Bool :=
  ([0, 1] : List Nat).any fun b =>
    let entry := l.word (l.bankOffset n b + 131072 + 4 * i) 4
    let bundle := BitVec.ofNat 256 (l.word (l.bankOffset n b + 32 * bits entry 11 0) 32)
    (decodeBundle bundle).header.cls = 1

/-- Is one schedule entry good (Table 19.5, R299)? -/
def Leg.scheduleEntryGood (s : State) (l : Leg) (i : Nat) : Bool :=
  let a := l.offsetOf 5 + 16 + 16 * i
  let e := l.scheduleAt i
  l.zero (a + 5) 1 && l.zero (a + 10) 6
    && (countFrom 0 5).all (fun k => decide (l.variant k = decide (e.index k ≠ 0xFF)))
    && 16 * 1024 ≤ e.length && e.length ≤ 512 * 1024 && 2 * 1024 ≤ e.rest && e.rest < e.length
    && voteBudget (usedAxes s).length l.latencyCap ≤ e.rest
    && (e.indexes.filter (· ≠ 0xFF)).all fun k => allCores.all fun n => l.entersStage n k

/-- 0x0501: the stage schedule (R473). -/
def Leg.scheduleGood (s : State) (l : Leg) : Bool :=
  match l.part 5 with
  | none => false
  | some e => 16 ≤ e.length && 1 ≤ l.entries && l.entries ≤ 4096 && l.zero (e.offset + 4) 12
    && 16 + 16 * l.entries ≤ e.length && (countFrom 0 l.entries).all (l.scheduleEntryGood s)

/-- Bytes that the leg's consignments deliver to engine g in a stage: the whole lines of link ends, a detour standing for the plan
entries that it carries, and mesh and die-to-die ends, but those that carry a link end's bales on (log entry 31). -/
def Leg.inboxBytes (l : Leg) (g : Nat) : Nat :=
  let carries (units : Nat) : Bool := allLinks.any fun k => (l.validLinks k).any fun x =>
    x.2.receive && x.2.tail = 2 && x.2.engine = g && (144 * x.2.count + 127) / 128 = units
      && (l.validDies (portSide k)).any fun y => !y.2.receive && y.2.far = 1 && y.2.link = k && y.2.entry = x.1
  let links := allLinks.foldl (fun b k => ((l.validLinks k).filter fun x =>
    x.2.receive && !x.2.detour && x.2.tail = 2 && x.2.engine = g).foldl (fun b x => b + 144 * x.2.count / 64 * 64) b) 0
  let dies := allSides.foldl (fun b k => ((l.validDies k).filter fun x =>
    x.2.receive && x.2.far = 2 && x.2.engine = g && !carries x.2.count).foldl (fun b x => b + 128 * x.2.count) b) 0
  let rowBytes (step row f : Nat) : Nat := (countFrom 0 13).foldl (fun b stop =>
    ((l.validMesh row f stop).filter fun x => x.2.step = step && x.2.output = portEdge && x.2.engine = g
      && (edgeSide row stop).isNone && !carries x.2.count).foldl (fun b x => b + 128 * x.2.count) b) 0
  let mesh := ((countFrom 0 5).filter l.variant).foldl (fun m k =>
    max m (([0, 11, 12, 23] : List Nat).foldl (fun b row => b + (countFrom 0 13).foldl (fun m f => max m (rowBytes k row f)) 0) 0)) 0
  links + dies + mesh

/-- 0x0701: the glaze inboxes (R175). -/
def Leg.inboxesGood (l : Leg) : Bool := (countFrom 0 24).all fun g => l.inboxBytes g ≤ 65536

/-- 0x0702: the intake points (R340). -/
def Leg.intakeGood (l : Leg) : Bool :=
  ((countFrom 0 256).all fun i =>
    let points := l.intakePoints i
    points.length ≤ 16 && points.all fun p => p.offset % 64 = 0 && p.most ≤ 64 && p.number ≤ 15 && p.core < 288 && l.declares p.ws ≠ 0)
  && l.scheduleList.all fun e =>
    let indexes := e.indexes.filter (· ≠ 0xFF)
    indexes.all (fun i =>
      let points := l.intakePoints i
      points.all (fun p => p.offset + 661 + p.most ≤ e.length - e.rest)
      && indexes.all fun j =>
        (points.map fun p => { p with index := 0 }) = (l.intakePoints j).map fun p => { p with index := 0 })

/-- The first check of Table 19.6 that the leg fails, as its detail code; none where it passes all. -/
def Leg.failure (s : State) (slot : Nat) (l : Leg) : Option Nat :=
  let t := trial s slot l
  if !l.headerGood then some 0x0101
  else if !l.formatGood s then some 0x0102
  else if !l.directoryGood then some 0x0103
  else if !l.patchesGood then some 0x0104
  else if l.computedHash ≠ l.legHash then some 0x0105
  else if !l.itineraryGood then some 0x0106
  else if !l.addressGood s then some 0x0107
  else if !l.steppingGood s then some 0x0201
  else if !l.latenciesGood then some 0x0202
  else if !l.variantsGood then some 0x0203
  else if !l.footprintGood s then some 0x0301
  else if !l.sharesGood s slot then some 0x0302
  else if !l.placementGood t then some 0x0303
  else if !l.greenGood t then some 0x0304
  else if !l.contextGood t slot then some 0x0305
  else if !l.waystationsGood t slot then some 0x0306
  else if !l.pointersGood s then some 0x0307
  else if !allCores.all (l.regionsGood t) then some 0x0401
  else if !allCores.all l.depotsGood then some 0x0402
  else if 6560000 < l.largestWeight t then some 0x0403
  else if !l.scheduleGood s then some 0x0501
  else match l.tableStatus s with
    | some x => some (0x0600 + x)
    | none =>
      if !l.inboxesGood then some 0x0701
      else if !l.intakeGood then some 0x0702
      else none

end Sys2Proof.Machine
end

