-- ==== Sys2Proof/Machine/Loader.lean ====
section
/-! DEFINITION. Loading and unloading a leg (R143, R163, R198, R337, R347, R477, R478; Table 19.7). -/

namespace Sys2Proof.Machine

/-- Object of the load status and of the load detail. -/
def loadStatus : Nat := od 0x5860 5
def loadDetail : Nat := od 0x5860 6

/-- A load or unload ends with a status and a detail. -/
def endLoad (s : State) (status detail : Nat) : State := odSet (odSet s loadStatus status) loadDetail detail

/-- The image as the steward reads it from device memory; none where it is unmapped (0x0100). -/
def readImage (s : State) (a n : Nat) : Option Leg :=
  if n = 0 then some { Leg.reset with length := 0 }
  else if !addressable s a n then none
  else some { Leg.reset with img := Memory.write [] 0 0 (readExt s a n), length := n }

/-- Is a start prepared here (R326, R347)? -/
def startPrepared (s : State) : Bool := (s.start.msg.isSome && s.start.ownStatus = 0) || s.start.kept.isSome || s.stage.phase = .armed

/-- LOAD (R347, R477): the checks are made on the image as it stands; a leg that passes is installed at LOAD_DONE. While
it is being installed the load status is 0x03. -/
def load (s : State) : State :=
  let slot := odGet s (od 0x5860 1)
  let a := odGet s (od 0x5860 2)
  let n := odGet s (od 0x5860 3)
  if runs s && runningSlot s = slot then endLoad s 0x02 0
  else if startPrepared s || s.host.loading.isSome then endLoad s 0x03 0
  else match readImage s a n with
    | none => raiseSource (endLoad s 0x01 0x0100) 2
    | some l =>
      match firstBad s a n with
      | some line => raiseSource (endLoad (uncorrectable s (readFrame s line) (lineBad s line) false) 0x01 0x0100) 2
      | none =>
        match l.failure s slot with
        | some d =>
          let s := if d / 256 = 6 then odSet s (od 0x3904 4) (d % 256) else s
          raiseSource (endLoad s 0x01 d) 2
        | none => noteTrackers (endLoad { s with host := { s.host with loading := some (slot, l) } } 0x03 0)

/-- The green regions in the format of OD 4018.02. -/
def greenBytes (g : List GreenRegion) : Bytes :=
  g.flatMap fun r => leBytes (r.base / 4096) 5 ++ leBytes r.pages 4 ++ leBytes (r.back / 4096) 5 ++ zeroBytes 2

/-- The device's green regions become `g`: pages that were green in none of the regions before start with epoch 0
(R163). -/
def setGreen (s : State) (g : List GreenRegion) : State :=
  let old := s.ext.green
  let kept := g.filter old.contains
  let inside (page : Nat) : Bool := kept.any fun r => r.base / 4096 ≤ page && page < r.base / 4096 + r.pages
  let s := { s with ext := { s.ext with green := g, epoch := s.ext.epoch.filter fun e => inside e.1 } }
  odSetBytes (odSet s (od 0x4018 1) g.length) (od 0x4018 2) (greenBytes g)

/-- The local shares and the sizes of the interleaved windows (R143, OD 401x.01, OD 401x.02). -/
def setShares (s : State) (l : Leg) : State :=
  (countFrom 0 4).foldl (fun s d =>
    let all := if d < 2 then 8 * (s.fuses.stackGiB.toNat - l.share d) else 4 * (lpUsable s (4 * (d - 2)) / gib - l.share d)
    odSet (odSet s (od (0x4010 + d) 1) (l.share d)) (od (0x4010 + d) 2) all) s

/-- The waystations that the resident legs declare (OD 5810, OD 58ww.01). -/
def showWaystations (s : State) : State :=
  let residents := setBits (odGet s (od 0x2000 2)) 8
  let kind (w : Nat) : Nat := residents.foldl (fun k r => max k ((getLeg s r).declares w)) 0
  let s := (countFrom 0 48).foldl (fun s w => odSet s (od (wsIndex w) 1) (kind w)) s
  let base := match residents with
    | r :: _ => (getLeg s r).areaBase
    | [] => 0
  odSet (odSet s (od 0x5810 1) base) (od 0x5810 2)
    ((countFrom 0 48).foldl (fun m w => if kind w = 0 then m else m + 2 ^ w) 0)

/-- The objects of a slot (Tables 8.8 and 19.7). -/
def showSlot (s : State) (slot : Nat) (l : Leg) : State :=
  let i := 0x2110 + slot
  let r := 0x2010 + slot
  let s := odSet (odSet s (od i 1) (l.word 4 1)) (od i 2) l.stepping
  let s := odSet (odSet s (od i 3) (if l.otherStepping s then 2 else 1)) (od i 4) l.compiledStep
  let s := odSetBytes (odSetBytes (odSet s (od i 5) l.variantMask) (od i 6) l.itineraryHash) (od i 7) l.legHash
  let s := odSet (odSet s (od i 8) l.entries) (od i 9) (l.largestWeight s)
  let s := odSet (odSet s (od i 0x0A) (l.footprint 0)) (od i 0x0B) (l.footprint 1)
  let s := odSet (odSet (odSet s (od r 1) l.role) (od r 2) l.firstContext) (od r 3) l.contextCount
  let s := odSet (odSet (odSet s (od r 4) 0) (od r 5) l.balanceIndex) (od r 6) l.balanceSafe
  let s := odSet (odSet s (od r 8) l.slotGroups) (od r 9) l.swapIndex
  (countFrom 0 8).foldl (fun s p => odSet s (od r (0x10 + p)) (l.pointer p)) s

/-- Install a leg in a slot: homes, contents, regions and objects (R347). A green region that another resident leg has loaded keeps its
pages (R167). -/
def installLeg (s : State) (slot : Nat) (l : Leg) : State :=
  let first := odGet s (od 0x2000 2) = 0
  let s := if first then { s with ctx := { s.ctx with table := [] } } else s
  let loaded := (otherResidents s slot).flatMap fun k => (getLeg s k).greenRegions
  let s := setShares s l
  let s := setGreen s (greenUnion s slot l)
  let s := odSet (setLeg s slot l) (od 0x2000 2) (setBit (odGet s (od 0x2000 2)) slot)
  let fresh (a : Nat) : Bool := !(loaded.any fun g => g.base ≤ a && a < g.base + 4096 * g.pages)
  let s := (l.homeRecords.filter fun r => fresh r.1).foldl (fun s r => stewardWrite s r.1 r.2) s
  let s := odSet s (od 0x2008 1) l.contextBase
  let s := (countFrom 0 8).foldl (fun s p =>
    stewardWrite s (l.contextBase + 0x80000 + 64 * slot + 8 * p) (leBytes (l.pointer p) 8)) s
  showWaystations (showSlot s slot l)

/-- LOAD_DONE (R477): the leg is installed, the load status is 0x00 and the load-or-start interrupt is raised. -/
def loadDone (s : State) : State :=
  match s.host.loading with
  | none => s
  | some (slot, l) =>
    let s := installLeg { s with host := { s.host with loading := none } } slot l
    raiseSource (endLoad (odAdd s (od 0x2100 2) 1) 0x00 0) 2

/-- Does a valid rotation-plan entry or an armed weight switch name the slot (R211, R347, Table 8.7)? -/
def slotReferenced (s : State) (slot : Nat) : Bool :=
  ((validEntries s).any fun i => planSlot (planEntry s i) = slot)
    || s.ctx.arm.any (fun a => a.slot = slot)

/-- Object ids of a slot, scalar and DOMAIN, that return to their empty values (Tables 8.8 and 19.7). -/
def slotScalars (slot : Nat) : List Nat :=
  (([1, 2, 3, 4, 5, 8, 9, 0x0A, 0x0B] : List Nat).map (od (0x2110 + slot)))
    ++ (([1, 2, 3, 4, 5, 6, 8, 9] : List Nat).map (od (0x2010 + slot)))
    ++ (countFrom 0 8).map fun p => od (0x2010 + slot) (0x10 + p)

/-- The slot is empty again: its leg, its objects, its green regions and its waystations go. -/
def clearSlot (s : State) (slot : Nat) : State :=
  let s := odSet (setLeg s slot Leg.reset) (od 0x2000 2) (clearBit (odGet s (od 0x2000 2)) slot)
  let s := (slotScalars slot).foldl (fun s id => odSet s id (objDefault id)) s
  let s := odSetBytes (odSetBytes s (od (0x2110 + slot) 6) []) (od (0x2110 + slot) 7) []
  let residents := setBits (odGet s (od 0x2000 2)) 8
  let g := (residents.flatMap fun k => (getLeg s k).greenRegions).foldl
    (fun g r => if g.contains r then g else g ++ [r]) []
  let s := setGreen s g
  showWaystations (if residents.isEmpty then odSet s (od 0x2008 1) 0 else s)

/-- UNLOAD (R347). -/
def unload (s : State) : State :=
  let slot := odGet s (od 0x5860 1)
  if runs s && runningSlot s = slot then endLoad s 0x02 0
  else if slotReferenced s slot then endLoad s 0x01 0x0801
  else endLoad (clearSlot s slot) 0x00 0

/-- LOAD_DONE (R477). -/
def execLoadDone (s : State) : Host.Outcome State Fault Refusal := .next (loadDone s)

end Sys2Proof.Machine
end

