-- ==== Sys2Proof/Machine/Stage.lean ====
section
/-! DEFINITION. The start of a stage and of its rest (R19, R20, R23, R24, R34, R75, R118, R130, R176, R239, R240, R434,
R435, R484). -/

namespace Sys2Proof.Machine

/-- Is the start of the next stage due (R239)? -/
def startDue (s : State) : Bool := (s.stage.phase = .armed || s.stage.phase = .verdict) && s.stage.nextStart ≤ now s

/-- The state of a core before a stage's first bundle (R34, R75, R118, R130), from its stage-table entry. -/
def Core.beginStage (c : Core) (entry : BitVec 32) : Core :=
  { c with
    state := .running, regs := Regs.reset, loops := [], acc := [], accInt := 0, accErrors := 0, mops := [], drains := []
    stores := [], region := none, pc := bits entry.toNat 11 0, cycle := 0, issued := 0, entered := false, stall := none
    deferred := [], arrayErrors := [], haltTaken := false, postTime := 0, lastSlots := 0
    parameter := BitVec.ofNat 20 (bits entry.toNat 31 12), written := [], waybill := 0, waybillAt := [], done := 0
    doneAt := [], inFlight := 0, issuedInStage := 0, depots := [], outer := [], outerFree := [], mirrors := [], retiredSlots := [] }

/-- Logical core n is IDLE for a stage that its device does not start (R24). -/
def idleCore (s : State) (n : Nat) : State :=
  modCoreOf s n fun c =>
    if c.state = .running || c.state = .atPost || c.state = .halted then { c with state := .idle, region := none, stall := none }
    else c

/-- Logical core n starts the stage at stage-table index i: a check error in the entry halts it with 0xA4. A core of a die that misses the
stage does not start (R465). -/
def startCore (i : Nat) (s : State) (n : Nat) : State :=
  if !dieMoves s (n / 144) then idleCore s n
  else
  let c := coreOf s n
  let k := 256 * flag c.bank + i
  let s := modCoreOf s n fun c => c.beginStage (Table.look c.stageTable 0 k)
  if c.bankErrors.contains (8192 + k) then
    takeHaltAt s n { code := 0xA4, slot := 7, bank := c.bank, address := 0, shadow := false, cycle := 0 }
      (some (siteStageEntry c.bank i))
  else s

/-- Rows that are to start throttled do so; stopped rows run again, but those of a hold entered since action 5, which stop until the rest
of this stage (R413, R484). -/
def startStageRows (s : State) : State :=
  let s := switchDividers s
  let s := allRows.foldl (fun s row =>
    let c := getRow s row
    let s := odSet s (od (regionClock (rowRegion row)) 3) (flag c.carry)
    setRow s row { c with tripped := c.carry, carry := false, stopped := s.power.hold }) s
  { s with power := { s.power with overPeak := false } }

/-- The fabric's tables of the stage start empty (R130, R279). -/
def clearFabric (s : State) : State :=
  let s := { s with fabric := { s.fabric with
    streams := [], sources := [], endBytes := [], arrived := [], forwards := [], broken := [], detoured := []
    meshDone := [], dieDone := [], units := [] } }
  (countFrom 0 48).foldl (fun s l => modLink s l fun k => { k with detours := [] }) s

/-- The engines' inboxes start empty (R130). -/
def clearInboxes (s : State) : State :=
  (countFrom 0 24).foldl (fun s g => noteInbox (setEngine s g { getEngine s g with inbox := [], waiting := [] }) g) s

/-- The objects of the stage's lateness restart (R434). -/
def clearLateness (s : State) : State :=
  allCores.foldl (fun s n => odSet (odSet s (od (0x4900 + n) 0x41) 0) (od (0x4900 + n) 0x43) 0) s

/-- The armed tally at the start of a stage: of mode 2, it takes its trigger tick from the first run of its stage (R437). -/
def dueTally (s : State) (start length : Nat) (y : Tally) : Tally :=
  if y.mode = 2 && s.stage.firstRun && y.slot = runningSlot s && y.stage = s.stage.number.toNat && y.offset < length then
    { y with due := some (start + y.offset) }
  else y

/-- Plan dies that miss the stage make it foul with cause reset, and are reloaded at its post (R465). -/
def missStage (s : State) : State :=
  let dies := (countFrom 0 2).filter fun d => !dieMoves s d
  if dies.isEmpty then s
  else
    let s := setCause s causeReset
    { s with boot := { s.boot with resetDies := s.boot.resetDies ++ dies.filter fun d => !s.boot.resetDies.contains d } }

/-- The next stage starts (R239), or its cores stay IDLE where a reload has not finished (R24). -/
def beginStage (s : State) : State :=
  let armed := s.stage.phase = .armed
  let e := (runningLeg s).schedule s.stage.number.toNat
  let i := e.index (deviceStep s)
  let start := s.stage.nextStart
  let unready := !s.stage.reloading.isEmpty
  let s := giveDueTargets (startStageRows (takeEpoch s))
  let s := clearLateness (clearInboxes (clearFabric s))
  let s := { s with
    stage := { s.stage with
      phase := .stage, index := i, start := start, length := e.length, rest := e.rest, unready := unready }
    vote := { s.vote with number := s.stage.number, phase := 0, t0 := start + e.length - e.rest, received := [], follows := false }
    observe := { s.observe with fingerprint := 0, armed := s.observe.armed.map (dueTally s start e.length) }
    host := { s.host with
      served := []
      staged := if s.stage.firstRun then [] else s.host.staged
      intake := if s.stage.firstRun then [] else s.host.intake
      recordCursor := if s.stage.firstRun then [] else s.host.recordCursor } }
  let s := odSet s (od 0x2410 3) (deviceStep s)
  let s := if armed then setDeviceState s (if odGet s (od 0x4401 1) = 1 then stDegraded else stRunning) else s
  if unready then allCores.foldl idleCore (setCause s causeUnready) else allCores.foldl (startCore i) (missStage s)

/-- STAGE_START (R239). -/
def execStageStart (s : State) : Host.Outcome State Fault Refusal := .next (if startDue s then beginStage s else s)

/-- Logical cores that have not reached their post bundle when the rest begins (R21, R240). -/
def lateCores (s : State) : List Nat := allCores.filter fun n => (coreOf s n).state = .running

/-- The latest entry into AT POST, with its core (R435). -/
def lastAtPost (s : State) : Option (Nat × Nat) :=
  allCores.foldl (fun m n =>
    let c := coreOf s n
    if c.state ≠ .atPost then m
    else match m with
      | some (t, _) => if t ≤ c.postTime then some (c.postTime, n) else m
      | none => some (c.postTime, n)) none

/-- The post margin (R435). -/
def noteMargin (s : State) (t0 : Nat) : State :=
  if !(lateCores s).isEmpty then odSet s (od 0x4800 0x20) 0x80000000
  else match lastAtPost s with
    | none => s
    | some (t, n) =>
      let m : Int := (t0 : Int) - t
      let s := odSet (odSetInt s (od 0x4800 0x20) m) (od 0x4800 0x21) n
      if m < odInt s (od 0x4800 0x22) then odSetInt s (od 0x4800 0x22) m else s

/-- The rest begins (R240): cores stop issuing, engines abandon what they have not finished, and a row stopped by an
in-stage hold runs again. -/
def beginRest (s : State) : State :=
  let t0 := s.stage.start + s.stage.length - s.stage.rest
  let s := noteMargin s t0
  let s := if (lateCores s).isEmpty then s else setCause s causeLate
  let s := { s with stage := { s.stage with phase := .rest }, vote := { s.vote with t0 := t0 } }
  let s := allCores.foldl (fun s n =>
    let s := settleDeferred s n
    odSet s (od (0x4900 + n) 0x42) (odGet s (od (0x4900 + n) 0x41))) s
  let s := (countFrom 0 24).foldl abandonRequests s
  allRows.foldl (fun s row => setRow s row { getRow s row with stopped := false }) s

/-- REST_START (R240). -/
def execRestStart (s : State) : Host.Outcome State Fault Refusal :=
  .next (if s.stage.phase = .stage && s.stage.start + s.stage.length - s.stage.rest ≤ now s then beginRest s else s)

end Sys2Proof.Machine
end

