-- ==== Sys2Proof/Machine/Vote.lean ====
section
/-! DEFINITION. The post vote: strikes, the device's own vote, its phases and deadlines (R23, R220, R237, R297 to R300,
R303 to R307, R312, R313, R317, R318, R352, R362, R442, Tables 11.9 and 11.10). -/

namespace Sys2Proof.Machine

/-- A vote of no cause (R313). -/
def Vote.empty : Vote := ⟨false, false, 0, 0, [], 0⟩

/-- Insert a notice word in ascending order, once. -/
def insertNotice (w : BitVec 32) : List (BitVec 32) → List (BitVec 32)
  | [] => [w]
  | x :: r => if w = x then x :: r else if w.toNat < x.toNat then w :: x :: r else x :: insertNotice w r

/-- The 16 lowest values in the union of two notice lists (R298). -/
def unionNotices (a b : List (BitVec 32)) : List (BitVec 32) := ((a ++ b).foldl (fun l w => insertNotice w l) []).take 16

/-- Combination of two votes (R298). -/
def combineVotes (a b : Vote) : Vote :=
  { foul := a.foul || b.foul, stop := a.stop || b.stop, ext := max a.ext b.ext, causes := a.causes ||| b.causes
    notices := unionNotices a.notices b.notices, flags := a.flags ||| b.flags }

/-- The vote of a peer whose vote is absent or split: foul with that cause and stop (R299, R300). -/
def Vote.broken (cause : Nat) : Vote := { Vote.empty with foul := true, stop := true, causes := BitVec.ofNat 16 (2 ^ cause) }

/-- The fields of a vote payload (Table 11.10). -/
structure VoteMsg where
  number : BitVec 64
  prevNumber : BitVec 64
  prevFoul : Bool
  relayed : Bool
  phase : Nat
  final : Nat
  vote : Vote
  deriving DecidableEq, Repr

/-- Read a vote payload. -/
def readVote (b : Bytes) : VoteMsg :=
  let f := field b 16 1
  { number := BitVec.ofNat 64 (field b 0 8), prevNumber := BitVec.ofNat 64 (field b 8 8), prevFoul := bitAt f 2
    relayed := bitAt f 3, phase := bits f 7 4, final := bits (field b 20 3) 19 0
    vote := { foul := bitAt f 0, stop := bitAt f 1, ext := field b 17 1, causes := BitVec.ofNat 16 (field b 18 2)
              notices := (countFrom 0 (min 16 (field b 23 1))).map fun i => BitVec.ofNat 32 (field b (24 + 4 * i) 4)
              flags := BitVec.ofNat 8 (field b 88 1) } }

/-- The 144 bytes of a vote payload. -/
def voteBytes (m : VoteMsg) : Bytes :=
  let v := m.vote
  leBytes m.number.toNat 8 ++ leBytes m.prevNumber.toNat 8
    ++ leBytes (flag v.foul + 2 * flag v.stop + 4 * flag m.prevFoul + 8 * flag m.relayed + 16 * (m.phase % 16)) 1
    ++ leBytes v.ext 1 ++ leBytes v.causes.toNat 2 ++ leBytes m.final 3 ++ leBytes v.notices.length 1
    ++ slice (v.notices.flatMap fun w => leBytes w.toNat 4) 0 64 ++ leBytes v.flags.toNat 1 ++ zeroBytes 55

/-- Source and destination fields of a vote bale: a device without a logical address names its coordinate. -/
def voteAddress (s : State) (coord : Nat) : Nat :=
  if coord = coordinate s then (if logicalAddress s < 2 ^ 20 then logicalAddress s else coord) else coord

/-- Queue a vote bale on a link ahead of every other requester's bale (R296: port 0), marked like any other (R295); a full queue drops it (R255). -/
def enqueueVote (s : State) (l : Nat) (dst : Nat) (src : Nat) (payload : Bytes) : State :=
  let bale := makeBale (dynamicHeader (epochBit s) dst src false false 1) payload
  if 256 ≤ (getLink s l).dynamic.length then dropCount s l 0x13 else enqueueDynamic s l 0 bale

/-- The lowest-numbered up link to the peer at coordinate q of axis a. -/
def upLinkTo (s : State) (a q : Nat) : Option Nat := (linksTo s a q).find? (linkUp s)

/-- Send this device's combined vote of phase k to one line peer, relayed where it has no up link to it (R298). -/
def sendVote (a k : Nat) (s : State) (q : Nat) : State :=
  let coord := setAxis (coordinate s) a q
  let m : VoteMsg :=
    { number := s.vote.number, prevNumber := s.vote.prevNumber, prevFoul := s.vote.prevFoul, relayed := false, phase := k
      final := 0, vote := s.vote.combined.getD Vote.empty }
  match upLinkTo s a q with
  | some l => enqueueVote s l (voteAddress s coord) (voteAddress s (coordinate s)) (voteBytes m)
  | none =>
    match (linePeers s a).findSome? fun v => if v = q then none else upLinkTo s a v with
    | some l =>
      enqueueVote s l (voteAddress s coord) (voteAddress s (coordinate s)) (voteBytes { m with relayed := true, final := coord })
    | none => s

/-- Send phase k, where the domain has that phase. -/
def sendPhase (s : State) (k : Nat) : State :=
  match (usedAxes s)[k]? with
  | none => s
  | some a => (linePeers s a).foldl (sendVote a k) s

/-- The vote received from the peer at coordinate q of the axis in phase k. -/
def receivedVote (s : State) (k q : Nat) : Option Vote :=
  (s.vote.received.find? fun r => r.1 = k && r.2.1 = q).map (·.2.2)

/-- Combine the complete phases in turn, sending the next phase of each; after the last comes the verdict (R298). -/
def proceedVote (s : State) : Nat → State
  | 0 => s
  | n + 1 =>
    let k := s.vote.phase
    match (usedAxes s)[k]? with
    | none => verdict s
    | some a =>
      let votes := (linePeers s a).map (receivedVote s k)
      if votes.any Option.isNone then s
      else
        let all := votes.foldl (fun c v => combineVotes c (v.getD Vote.empty)) (s.vote.combined.getD Vote.empty)
        proceedVote (sendPhase { s with vote := { s.vote with combined := some all, phase := k + 1 } } (k + 1)) n

/-- A vote is open: it is sent in phase 0 and combined with what has come. -/
def openVote (s : State) (own : Vote) : State :=
  let s := { s with
    vote := { s.vote with own := some own, combined := some own, phase := 0 }
    stage := { s.stage with phase := .voted } }
  proceedVote (sendPhase s 0) 5

/-- Kinds of unit that R303 makes permanent (Table 12.1). -/
def strikeKind (kind : Nat) : Bool := kind = kindCore || kind = kindMesh || kind = kindModule || kind = kindEngine

/-- Kinds of unit that R304 makes permanent: those, and an interface of external memory, by its line address. -/
def siteKind (kind : Nat) : Bool := strikeKind kind || kind = kindStack || kind = kindLp

/-- One unit's strike at this vote (R303, R304). -/
def Strikes.vote (kind : Nat) (h : Strikes) : Strikes :=
  let struck := !h.sites.isEmpty
  let hist := (h.history <<< (1 : Nat)) ||| (if struck then 1 else 0)
  let again := h.history.getLsbD 0 && h.sites.any fun x => h.lastSites.contains x
  let now := struck && ((strikeKind kind && 3 ≤ popCount hist.toNat 64) || (siteKind kind && again))
  { h with history := hist, lastSites := h.sites, sites := [], permanent := h.permanent || now }

/-- The objects that count strikes (Table 12.8). -/
def showStrikes (s : State) (kind unit : Nat) (count : Nat) : State :=
  if kind = kindCore then odSet s (od (0x3400 + unit / 13) (0x20 + unit % 13)) count
  else if kind = kindEngine then odSet s (od (0x4100 + unit) 0x13) count
  else s

/-- Every unit's strikes are decided (R306). -/
def decideStrikes (s : State) : State :=
  s.strikes.foldl (fun s e =>
    let kind := e.1 / 65536
    let h := e.2.vote kind
    let s := setStrikes s e.1 (if h = { Strikes.reset with first := h.first } then Strikes.reset else h)
    showStrikes s kind (e.1 % 65536) (popCount h.history.toNat 64)) s

/-- Permanent units of a kind. -/
def permanentUnits (s : State) (kind : Nat) : List Nat :=
  (s.strikes.filter fun e => e.1 / 65536 = kind && e.2.permanent).map fun e => e.1 % 65536

/-- Insert a core in the order of first detections (R318). -/
def insertFirst (s : State) (p : Nat) : List Nat → List Nat
  | [] => [p]
  | q :: r =>
    if (getStrikes s (unitKey kindCore p)).first < (getStrikes s (unitKey kindCore q)).first then p :: q :: r
    else q :: insertFirst s p r

/-- Permanent cores that wait for a switch-over, in order. -/
def waitingCores (s : State) : List Nat :=
  ((permanentUnits s kindCore).filter (waitingCore s)).foldl (fun l p => insertFirst s p l) []

/-- The results of Table 12.1 for the units that are permanent (R302, R317). -/
def takePermanent (s : State) : State :=
  let waiting := waitingCores s
  let lost (p : Nat) : Bool :=
    odGet s (od (0x3400 + p / 13) 2) = 0 || waiting.any fun q => q ≠ p && q / 13 = p / 13
  let s := match waiting.find? lost with
    | some p => raiseLoss s 0x10 kindRow (p / 13) 0
    | none => s
  let s := (permanentUnits s kindMesh).foldl (fun s p => raiseLoss s 0x10 kindRow (p / 13) 0) s
  let s := (permanentUnits s kindModule).foldl (fun s u => raiseLoss s 0x13 kindModule u 0) s
  let fail (kind index cause : Nat) (s : State) (u : Nat) : State := raiseLoss (odSet s (od (index + u) 2) 2) cause kind u 0
  let s := (permanentUnits s kindStack).foldl (fail kindStack 0x4000 0x11) s
  let s := (permanentUnits s kindLp).foldl (fail kindLp 0x4020 0x11) s
  let s := (permanentUnits s kindEngine).foldl (fail kindEngine 0x4100 0x12) s
  if s.vote.loss then s else { s with stage := { s.stage with switchOver := waiting.head? } }

/-- Fired external data are lost, line by line (R307). -/
def takeLostData (s : State) : State :=
  s.ext.lost.foldl (fun s line =>
    let i := (locate s line).elim 0 (·.iface)
    stopAtPost s 0x0C (ifaceKind i) (ifaceUnit i) 0) { s with ext := { s.ext with lost := [] } }

/-- A device that is UNFIT votes foul, and stops the domain the second time (R237). -/
def takeUnfit (s : State) : State :=
  let unfit := discipline s = dsUnfit
  let twice := unfit && s.vote.prevUnfit
  let s := { s with vote := { s.vote with prevUnfit := unfit } }
  let s := if unfit then setCause (odAdd s (od 0x2400 0x0B) 1) causeTime else s
  if twice then stopAtPost s 0x07 kindDevice (coordinate s) 0 else s

/-- Foul votes with cause capacity stop the domain (R166, R343). -/
def takeCapacity (s : State) : State :=
  if !s.vote.causes.getLsbD causeCapacity then s
  else
    let s := s.ext.full.foldl (fun s d => odAdd s (od (0x4010 + d) 5) 1) s
    stopAtPost s 0x05 kindDevice (coordinate s) 0

/-- The floor that a pending survey will leave (R420). -/
def plannedFloor (s : State) : Nat :=
  allRows.foldl (fun m row =>
    let r := rowRegion row
    if regionFailed s r then m
    else
      let f := match s.power.planned.find? fun x => x.1 = r with
        | some (_, p) => if p.exhausted then odGet s (od (regionClock r) 2) else p.floor
        | none => odGet s (od (regionClock r) 2)
      max m f) 0

/-- No variant for the step that action 5 would require (R220). -/
def takeStepCause (s : State) : State :=
  match (runningLeg s).variantFrom (requiredStep s (plannedFloor s) (throttleAtPost s)) with
  | some _ => s
  | none => stopAtPost (setCause s causeStep) 0x06 kindDevice (coordinate s) 0

/-- Requests to stop at this post (R352, R442). -/
def takeStopRequests (s : State) : State :=
  let s := if odGet s (od 0x5800 5) = 1 then odSet (setStop s) (od 0x5800 5) 0 else s
  if odGet s (od 0x4C20 1) = s.stage.number.toNat && odGet s (od 0x4C20 1) ≠ 2 ^ 64 - 1
      && odGet s (od 0x4C20 2) = runningSlot s then setStop s
  else s

/-- The rest extension that this post's actions need (R23, R213, R314, R464). -/
def askExtensions (s : State) : State :=
  let s := if s.stage.switchOver.isSome then askExtension s 147 else s
  let dies := s.boot.reloadDies
  let s := if dies.isEmpty then s
    else askExtension s (if dies.any fun d => Table.look s.boot.dieReset 0 d ≠ 0 then 255 else 147)
  match rotationAfter s ((runningLeg s).quantum + 1) with
  | some e => askExtension s (min 255 (getLeg s (planSlot (planEntry s e))).rotationUnits)
  | none => s

/-- The stored values of the post-timed objects are latched (R362). -/
def latchPosted (s : State) : State :=
  { s with dict := { s.dict with latch := s.dict.pendingPost.map fun id => (id, odGet s id), pendingPost := [] } }

/-- The device's own vote, from what has arisen since the previous one (R297). -/
def ownVote (s : State) : Vote :=
  let v := s.vote
  { foul := v.causes ≠ 0, stop := v.stop, ext := min 255 v.ext, causes := v.causes, notices := unionNotices v.notices []
    flags := (if v.stepChanged then 1 else 0) ||| (if v.halted then 2 else 0) }

/-- What a vote takes with it is cleared (R108, R297). -/
def clearVoted (s : State) : State :=
  let s := odSet (odSet s (od 0x2040 2) 0) (od 0x2040 3) 0
  { s with
    vote := { s.vote with
      causes := 0, stop := false, ext := 0, halted := false, stepChanged := false
      loss := false, lossVoted := s.vote.loss, raised := s.vote.raised ++ s.vote.lossRaised, lossRaised := [] }
    ext := { s.ext with full := [] } }

/-- The steward runs its firmware and its clock: a device whose steward has stopped for good votes no more (R320). -/
def stewardVotes (s : State) : Bool := s.boot.runningFirmware && stewardRuns s

/-- 64 ticks into the rest the device forms its vote (R297). A device whose steward has stopped for good sends none (R320). -/
def formVote (s : State) : State :=
  if s.stage.phase ≠ .rest || now s < s.vote.t0 + 64 || !stewardVotes s then s
  else
    let s := { s with boot := { s.boot with
      reloadDies := s.boot.resetDies, resetDies := [] } }
    let s := takePermanent (decideStrikes (computeSurvey s))
    let s := takeStopRequests (takeStepCause (takeCapacity (takeUnfit (takeLostData s))))
    let s := latchPosted (askExtensions s)
    let s := odSet s (od 0x4C08 2) s.observe.fingerprint.toNat
    let own := ownVote s
    openVote (clearVoted s) own

/-- VOTE_FORM (R297). -/
def execVoteForm (s : State) : Host.Outcome State Fault Refusal := .next (formVote s)

/-- Does the device follow posts without a leg (R313)? -/
def followsPosts (s : State) : Bool := !runs s && (deviceState s = stFaulted || 2 ^ 20 ≤ logicalAddress s)

/-- The axis of phase k on which an address differs from this device's, and its coordinate there. -/
def peerOnAxis (s : State) (k coord : Nat) : Option Nat :=
  match (usedAxes s)[k]? with
  | none => none
  | some a =>
    let q := onAxis coord a
    if coord ≠ coordinate s && setAxis (coordinate s) a q = coord then some q else none

/-- Does the vote's post differ from the receiver's own (R300)? -/
def splitVote (s : State) (m : VoteMsg) : Bool :=
  m.number ≠ s.vote.number || m.prevNumber ≠ s.vote.prevNumber || m.prevFoul ≠ s.vote.prevFoul

/-- A vote is entered once per phase and peer; a split one counts as foul with causes split and stop (R300). -/
def enterVote (s : State) (m : VoteMsg) (coord : Nat) : State :=
  match peerOnAxis s m.phase coord with
  | none => s
  | some q =>
    if m.phase < s.vote.phase || (receivedVote s m.phase q).isSome then s
    else
      let put (s : State) (v : Vote) : State :=
        { s with vote := { s.vote with received := s.vote.received ++ [(m.phase, q, v)] } }
      if splitVote s m then
        put (raiseAtPost (odAdd s (od 0x2030 7) 1) 0x0A kindDevice coord 0) (Vote.broken causeSplit)
      else put s m.vote

/-- A relayed vote goes on to its final peer at once (R298). -/
def relayVote (s : State) (source : Nat) (payload : Bytes) (final : Nat) : State :=
  match (usedAxes s).find? fun a => onAxis final a ≠ onAxis (coordinate s) a with
  | none => s
  | some a =>
    match upLinkTo s a (onAxis final a) with
    | some l => enqueueVote (odAdd s (od 0x3904 3) 1) l (voteAddress s final) source payload
    | none => s

/-- A device without a leg takes its post from the first phase-0 vote (R313). -/
def followFrom (s : State) (link : Nat) (m : VoteMsg) : State :=
  let t0 := now s - 64 - linkLatency s link - 48
  { s with
    vote := { s.vote with
      number := m.number, prevNumber := m.prevNumber, prevFoul := m.prevFoul, t0 := t0, received := [], phase := 0, follows := true }
    stage := { s.stage with number := m.number } }

/-- A vote arrives (R298 to R300, R313). -/
def takeVote (s : State) (link source : Nat) (payload : Bytes) : State :=
  let m := readVote payload
  if m.relayed && m.final ≠ coordinate s then relayVote s source payload m.final
  else
    let coord := if m.relayed then physicalOf s source else (peerCoordinate s link).getD (physicalOf s source)
    match s.stage.phase with
    | .none =>
      if !followsPosts s || !stewardVotes s || m.phase ≠ 0 || (s.vote.t0 ≠ 0 && now s < s.vote.t0 + 16384) then s
      else if s.vote.misses then { s with vote := { s.vote with misses := false, t0 := now s } }
      else openVote (enterVote (followFrom s link m) m coord) Vote.empty
    | .stage => enterVote s m coord
    | .rest => enterVote s m coord
    | .voted => if stewardVotes s then proceedVote (enterVote s m coord) 5 else s
    | .armed => s
    | .verdict => s

/-- POST_VOTE (R298). -/
def execPostVote (link : LinkId) (source : BitVec 20) (payload : Bytes) (s : State) : Host.Outcome State Fault Refusal :=
  .next (takeVote s link.val source.toNat payload)

/-- The deadline of phase k (R299), from the latency cap that the leg names. -/
def voteDeadline (s : State) (k : Nat) : Nat :=
  let cap := odGet s (od 0x3900 3)
  s.vote.t0 + 64 + 2 * (k + 1) * (cap + 88) + (2 * cap + 352)

/-- The votes of the phase that have not arrived by its deadline count as absent (R299). -/
def missVotes (s : State) : State :=
  let k := s.vote.phase
  if s.stage.phase ≠ .voted || now s < voteDeadline s k || !stewardVotes s then s
  else match (usedAxes s)[k]? with
    | none => s
    | some a =>
      let absent := (linePeers s a).filter fun q => (receivedVote s k q).isNone
      let s := absent.foldl (fun s q =>
        let s := raiseAtPost (odAdd s (od 0x2030 6) 1) 0x09 kindDevice (setAxis (coordinate s) a q) 0
        { s with vote := { s.vote with received := s.vote.received ++ [(k, q, Vote.broken causeAbsent)] } }) s
      proceedVote s 5

/-- VOTE_DEADLINE (R299). -/
def execVoteDeadline (s : State) : Host.Outcome State Fault Refusal := .next (missVotes s)

/-- Unacknowledged records are delivered again once OD 4400.08 ms have passed; on the host path all of an interval raise one
message (R322). -/
def resendRecords (s : State) : State :=
  if s.escalations.isEmpty || now s < s.deliveredAt + 1250000 * odGet s (od 0x4400 8) then s
  else
    let s := { s with deliveredAt := now s }
    let paths := odGet s (od 0x4400 1)
    let s := if bitAt paths 0 then
        s.escalations.foldl (fun s r => sendEvent s ([1] ++ zeroBytes 7 ++ leBytes r.toNat 32)) s
      else s
    if bitAt paths 1 then sendMsix s (sourceVector s 1) else s

/-- ESCALATION_RESEND (R322). -/
def execEscalationResend (s : State) : Host.Outcome State Fault Refusal := .next (resendRecords s)

end Sys2Proof.Machine
end

