-- ==== Sys2Proof/Machine/Start.lean ====
section
/-! DEFINITION. Starting a job, and substitutions (R107, R220, R229, R276, R277, R290, R311, R324 to R327, R348 to R352,
R379; Table 13.6). -/

namespace Sys2Proof.Machine

/-- The 112 bytes of a start message of a type (Table 13.6). -/
def startBytes (type : Nat) (m : StartMsg) : Bytes :=
  leBytes type 1 ++ leBytes m.axis 1 ++ leBytes m.slot.val 1 ++ leBytes m.status 1 ++ leBytes m.number.toNat 4
    ++ leBytes m.hash8.toNat 8 ++ leBytes m.stage.toNat 8 ++ leBytes m.index.toNat 2 ++ zeroBytes 6
    ++ leBytes m.startAt.toNat 8 ++ leBytes m.failing.toNat 4 ++ leBytes m.notices.length 1 ++ zeroBytes 3
    ++ slice (m.notices.flatMap fun w => leBytes w.toNat 4) 0 64

/-- Read a start message; none where the slot is no resident slot or a notice count is beyond 16. -/
def readStart (b : Bytes) : Option StartMsg :=
  if h : field b 2 1 < 8 then
    if 16 < field b 44 1 then none
    else some {
      axis := field b 1 1, slot := ⟨field b 2 1, h⟩, status := field b 3 1, number := BitVec.ofNat 32 (field b 4 4)
      hash8 := BitVec.ofNat 64 (field b 8 8), stage := BitVec.ofNat 64 (field b 16 8), index := BitVec.ofNat 16 (field b 24 2)
      startAt := BitVec.ofNat 64 (field b 32 8), failing := BitVec.ofNat 20 (field b 40 4)
      notices := (countFrom 0 (field b 44 1)).map fun i => BitVec.ofNat 32 (field b (48 + 4 * i) 4) }
  else none

/-- Message types (Table 13.6). -/
def msgPrepare : Nat := 1
def msgAck : Nat := 2
def msgGo : Nat := 3
def msgAbort : Nat := 4

/-- Send a start message to a device (dynamic kind 0x07). -/
def sendStart (s : State) (dst type : Nat) (m : StartMsg) : State :=
  let (s, tag) := newTag s fromSteward
  sendDynamic s dst 0x07 tag (startBytes type m)

/-- Logical coordinates on axis a: the spare axis has one fewer (R276). -/
def logicalLine (s : State) (a : Nat) : Nat := if spareAxis s = some a then lineLength s a - 1 else lineLength s a

/-- Logical peers of the device on axis a. -/
def logicalPeers (s : State) (own a : Nat) : List Nat :=
  ((countFrom 0 (logicalLine s a)).filter fun c => c ≠ onAxis own a).map fun c => setAxis own a c

/-- The axes on which a device forwards a PREPARE: those after the axis that it came on; every used axis at the starter
(R325). -/
def axesAfter (s : State) (axis : Option Nat) : List Nat :=
  (usedAxes s).filter fun a => match axis with
    | some k => k < a
    | none => true

/-- The axis on which two addresses of a line differ. -/
def axisBetween (s : State) (x y : Nat) : Nat := ((usedAxes s).find? fun a => onAxis x a ≠ onAxis y a).getD 0

/-- 10 ms and 60 ms in ticks (R325, R326). -/
def ackWait : Nat := 12500000
def discardWait : Nat := 75000000

/-- Links of the leg that book a bale. -/
def Leg.bookedLinks (l : Leg) : List Nat := allLinks.filter fun k => !(l.validLinks k).isEmpty

/-- Does a link that the leg books have a latency above its cap (R349)? -/
def latencyAbove (s : State) (l : Leg) : Bool :=
  l.bookedLinks.any fun k => match carriage s k with
    | some c => l.latencyCap < linkLatency s c.link
    | none => false

/-- The device's own answer to a PREPARE (R14, R349, R473). -/
def prepareStatus (s : State) (m : StartMsg) : Nat :=
  let slot := m.slot.val
  let l := getLeg s slot
  if !(deviceState s = stReady || deviceState s = stStopped) || !inLock s || s.stage.phase = .armed then 0x03
  else if !resident s slot || !ownLeg s slot || leNat (l.itineraryHash.take 8) ≠ m.hash8.toNat
      || (l.schedule m.stage.toNat).index l.compiledStep ≠ m.index.toNat then 0x02
  else if latencyAbove s l then 0x04
  else if (l.variantFrom (requiredStep s (odGet s (od 0x2410 4)) (odGet s (od 0x2410 5)))).isNone then 0x05
  else 0x00

/-- Notices for the links of this device that are cabled and not up. -/
def ownNotices (s : State) : List (BitVec 32) :=
  ((countFrom 0 48).filter fun l => (cabling s l).isSome && !linkUp s l).map fun l => noticeWord s l false

/-- Epoch 0 from a down set (R290, R349, R350). -/
def epochZero (s : State) (set : List (BitVec 32)) : State :=
  let s := odSet (odSet s (od 0x3900 1) 0) (od 0x3900 5) 0
  { s with fabric := { s.fabric with
      current := buildRoutes s set, next := [], old := [], downSet := set, announced := [], nextSet := [], switchAt := now s
      epochDue := false } }

/-- The cursors and counters of the leg's waystations start again at 0 (R338, R349). -/
def resetCursors (s : State) : State :=
  (countFrom 0 48).foldl (fun s w =>
    if wsKind s w = 0 then s
    else
      let s := setControl (odSet s (od (wsIndex w) 2) 0) w 0
      { s with host := { s.host with
          recordCursor := Table.drop s.host.recordCursor w, copying := Table.put s.host.copying [] w [] } }) s

/-- The device takes the step that R220 requires: dividers switch and regulators settle at once (R349). -/
def prepareSteps (s : State) : State :=
  match (runningLeg s).variantFrom (requiredStep s (odGet s (od 0x2410 4)) (odGet s (od 0x2410 5))) with
  | some v => allRegions.foldl settleRegulator (switchDividers (takeStep s v))
  | none => s

/-- What a device does on a PREPARE that it can follow (R349; R212, steps 2 to 4). -/
def prepareLeg (s : State) (m : StartMsg) : State :=
  let slot := m.slot.val
  let old := runningSlot s
  let s := if old = slot then s else exchangeRequests s old slot
  let s := odSet s (od 0x2000 1) slot
  let s := match (validEntries s).find? fun i => planSlot (planEntry s i) = slot with
    | some i => odSet s (od 0x2000 3) i
    | none => s
  let s := showLeg (setLeg s slot { getLeg s slot with quantum := 0 })
  let s := finishReload (allCores.foldl awaitLoad s)
  let s := odSet (epochZero s (ownNotices s)) (od 0x2040 1) 0
  let s := if m.status % 2 = 1 then resetCursors s else s
  prepareSteps s

/-- The status and the failing coordinate of a merged ACK: the device's own, else that of the failing child of lowest
physical coordinate; a child that has not answered is absent (R325, R349). -/
def mergedStatus (s : State) : Nat × Nat :=
  let u := s.start
  if u.ownStatus ≠ 0 then (u.ownStatus, coordinate s)
  else
    let child (c : Nat) : Nat × Nat × Nat := match u.answered.find? fun x => x.1 = c with
      | some x => (physicalOf s c, x.2.1, x.2.2)
      | none => (physicalOf s c, 0x01, physicalOf s c)
    let failed := (u.children.map child).filter fun x => x.2.1 ≠ 0
    match failed.foldl (fun (best : Option (Nat × Nat × Nat)) x => match best with
        | none => some x
        | some b => if x.1 < b.1 then some x else best) none with
    | some x => x.2
    | none => (0, 0)

/-- The prepared start is gone; a STOPPED device returns to READY (R326). -/
def discardStart (s : State) : State :=
  let held := s.start.msg.isSome && s.start.ownStatus = 0
  let s := { s with start := { s.start with msg := none, deadline := 0, children := [], answered := [] } }
  if !held then s
  else
    let s := odSet s (od 0x4420 2) 3
    if deviceState s = stStopped then setDeviceState s stReady else s

/-- A kept start is discarded (R326). -/
def discardKept (s : State) : State :=
  match s.start.kept with
  | none => s
  | some _ =>
    let s := odSet { s with start := { s.start with kept := none } } (od 0x4420 2) 3
    if deviceState s = stStopped then setDeviceState s stReady else s

/-- The start that stays prepared when the device acts on a further PREPARE with its own status (R326): one that it can follow takes
the place of an earlier one; one that it can't leaves the earlier one prepared. -/
def StartUnit.keep (u : StartUnit) (own : Nat) : Option KeptStart :=
  if own = 0 then none
  else match u.msg with
    | some p => if u.ownStatus = 0 then some ⟨p, u.children, u.discardAt⟩ else u.kept
    | none => u.kept

/-- The causes that count at the first post of a start: a spill or a non-finite value that a flag of Table 4.5 still holds (R106,
R108). -/
def standingCauses (s : State) : BitVec 16 :=
  BitVec.ofNat 16 (odGet s (od 0x2040 2) % 2 * 2 ^ causeSpill + odGet s (od 0x2040 3) % 2 * 2 ^ causeNonFinite)

/-- GO arms the first stage (R107, R310, R350). The causes that have arisen since the device formed its previous vote go with its
next one (R297), and the halt flag with them. -/
def armStage (s : State) (m : StartMsg) : State :=
  let s := { s with start := { s.start with msg := none, deadline := 0, children := [], answered := [], kept := none } }
  let s := epochZero s m.notices
  let s := odSet (odSet (odSet s (od 0x4401 2) 0) (od 0x2040 1) 0) (od 0x4420 2) 2
  let s := odSet s (od (0x2010 + runningSlot s) 4) m.stage.toNat
  { s with
    stage := { s.stage with
      phase := .armed, number := m.stage, nextStart := m.startAt.toNat, firstRun := true, unready := false }
    vote := { s.vote with
      causes := s.vote.causes ||| standingCauses s, stop := false, ext := 0, stepChanged := false, combined := none, own := none
      loss := false, lossRaised := [], lossVoted := false, misses := false, received := [], prevNumber := 0xFFFFFFFFFFFFFFFF, prevFoul := false, last := none
      notices := s.vote.notices.filter fun w => !m.notices.contains w } }

/-- A GO reaches the device: at or after T_s, or where it has failed since, it does not start (R312, R350). -/
def takeGo (s : State) (m : StartMsg) : State :=
  if s.start.ownStatus ≠ 0 || deviceState s = stFaulted || m.startAt.toNat ≤ now s then discardStart s else armStage s m

/-- Send a message on to the children, on the axis of each. -/
def sendChildren (s : State) (children : List Nat) (type : Nat) (m : StartMsg) : State :=
  children.foldl (fun s c => sendStart s c type { m with axis := axisBetween s (logicalAddress s) c }) s

/-- T_s of a GO sent now (R350). -/
def goTime (s : State) : Nat := (now s + 1250000 + 1023) / 1024 * 1024

/-- The starter's rounds end with a result (R350): GO, or ABORT with 0x16 for an absent child. -/
def endRounds (s : State) (m : StartMsg) (status failing : Nat) : State :=
  let children := s.start.children
  let s := raiseSource (odSet (odSet s (od 0x5870 7) status) (od 0x5870 9) failing) 2
  if status = 0 then
    let t := goTime s
    let go : StartMsg := { m with status := 0, failing := 0, startAt := BitVec.ofNat 64 t, notices := s.start.notices }
    takeGo (sendChildren (odSet s (od 0x5870 8) t) children msgGo go) go
  else
    let abort : StartMsg := { m with
      status := 0, stage := 0, index := 0, startAt := 0, failing := BitVec.ofNat 20 failing, notices := [] }
    let s := sendChildren s children msgAbort abort
    let s := if status = 0x01 then escalate s 0x16 kindDevice failing 0 else s
    let s := odSet s (od 0x4420 2) 3
    discardStart s

/-- The device has what it waits for: it answers its parent, or the starter ends the rounds (R325). -/
def answerStart (s : State) : State :=
  match s.start.msg with
  | none => s
  | some m =>
    let (status, failing) := mergedStatus s
    let s := { s with start := { s.start with deadline := 0 } }
    match s.start.parent with
    | none => endRounds s m status failing
    | some p =>
      let ack : StartMsg := { m with
        axis := axisBetween s (logicalAddress s) p, status := status, stage := 0, index := 0, startAt := 0
        failing := BitVec.ofNat 20 failing, notices := s.start.notices }
      sendStart s p msgAck ack

/-- A device acts on a PREPARE from a parent, or as the starter on its own (R325, R326, R348, R349). -/
def actPrepare (s : State) (parent : Option Nat) (m : StartMsg) : State :=
  let own := prepareStatus s m
  let axes := axesAfter s (parent.map fun _ => m.axis)
  let children := axes.flatMap (logicalPeers s (logicalAddress s))
  let s := odSet s (od 0x4420 1) m.number.toNat
  let s := if own = 0 then odSet (prepareLeg s m) (od 0x4420 2) 1 else s
  let s := { s with start := {
    msg := some m, parent := parent, children := children, answered := [], ownStatus := own
    notices := if own = 0 then unionNotices (ownNotices s) [] else []
    deadline := now s + ackWait * axes.length, discardAt := now s + discardWait, kept := s.start.keep own } }
  let s := sendChildren s children msgPrepare m
  if children.isEmpty then answerStart s else s

/-- PREPARE (R325, R326, R349). -/
def takePrepare (s : State) (source : Nat) (m : StartMsg) : State :=
  if m.number.toNat ≤ odGet s (od 0x4420 1) || 2 ^ 20 ≤ logicalAddress s then s else actPrepare s (some source) m

/-- ACK (R325): a child's answer is merged; the device answers once all are in. -/
def takeStartAck (s : State) (source : Nat) (m : StartMsg) : State :=
  let u := s.start
  match u.msg with
  | none => s
  | some p =>
    if u.deadline = 0 || p.number ≠ m.number || !u.children.contains source || u.answered.any (fun x => x.1 = source) then s
    else
      let answered := u.answered ++ [(source, m.status, m.failing.toNat)]
      let s := { s with start := { u with answered := answered, notices := unionNotices u.notices m.notices } }
      if answered.length = u.children.length then answerStart s else s

/-- Is a GO or ABORT one of the start that the device acts on (R326)? -/
def ofStart (s : State) (m : StartMsg) : Bool := match s.start.msg with
  | some p => p.number = m.number
  | none => false

/-- The kept start that a GO or ABORT names (R326). -/
def keptStart (s : State) (m : StartMsg) : Option KeptStart := s.start.kept.filter fun k => k.msg.number = m.number

/-- GO (R326, R350): passed on to the children, then taken. -/
def receiveGo (s : State) (m : StartMsg) : State :=
  if ofStart s m then takeGo (sendChildren s s.start.children msgGo m) m
  else match keptStart s m with
    | none => s
    | some k =>
      let s := sendChildren s k.children msgGo m
      if deviceState s = stFaulted || m.startAt.toNat ≤ now s then discardKept s else armStage s m

/-- ABORT (R326): passed on to the children; the prepared start is discarded. -/
def receiveAbort (s : State) (m : StartMsg) : State :=
  if ofStart s m then discardStart (sendChildren s s.start.children msgAbort m)
  else match keptStart s m with
    | none => s
    | some k => discardKept (sendChildren s k.children msgAbort m)

/-- A start message acts by its type; other types are reserved (Table 13.6). -/
def takeStartMessage (s : State) (source : Nat) (b : Bytes) : State :=
  match readStart b with
  | none => s
  | some m => match field b 0 1 with
    | 1 => takePrepare s source m
    | 2 => takeStartAck s source m
    | 3 => receiveGo s m
    | 4 => receiveAbort s m
    | _ => s

/-- PREPARE (R349). -/
def execPrepare (source : BitVec 20) (msg : StartMsg) (s : State) : Host.Outcome State Fault Refusal :=
  .next (takePrepare s source.toNat msg)

/-- ACK (R325). -/
def execAck (source : BitVec 20) (msg : StartMsg) (s : State) : Host.Outcome State Fault Refusal :=
  .next (takeStartAck s source.toNat msg)

/-- GO (R350). -/
def execGo (_source : BitVec 20) (msg : StartMsg) (s : State) : Host.Outcome State Fault Refusal := .next (receiveGo s msg)

/-- ABORT (R326). -/
def execAbort (_source : BitVec 20) (msg : StartMsg) (s : State) : Host.Outcome State Fault Refusal :=
  .next (receiveAbort s msg)

/-- ACK_DEADLINE (R325): what has not answered is absent. -/
def execAckDeadline (s : State) : Host.Outcome State Fault Refusal :=
  .next (if s.start.deadline ≠ 0 && s.start.deadline ≤ now s then answerStart s else s)

/-- PREPARE_DISCARD (R326): 60 ms without GO or ABORT. -/
def execPrepareDiscard (s : State) : Host.Outcome State Fault Refusal :=
  let t := if s.start.msg.isSome && s.start.discardAt ≤ now s then discardStart s else s
  .next (if s.start.kept.any fun k => k.discardAt ≤ now s then discardKept t else t)

/-- The start command's effect (R348): the starter prepares as a device does and sends PREPARE on its lines. A number that
is not greater than the starter's own last one ends the start with status 0x03 at once. -/
def startJob (s : State) : State :=
  let slot := odGet s (od 0x5870 2)
  if odGet s (od 0x5870 1) ≤ odGet s (od 0x4420 1) then
    raiseSource (odSet (odSet s (od 0x5870 7) 0x03) (od 0x5870 9) (coordinate s)) 2
  else if h : slot < 8 then
    let m : StartMsg := {
      axis := (usedAxes s).headD 0, slot := ⟨slot, h⟩, status := odGet s (od 0x5870 5)
      number := BitVec.ofNat 32 (odGet s (od 0x5870 1)), hash8 := BitVec.ofNat 64 (leNat ((getLeg s slot).itineraryHash.take 8))
      stage := BitVec.ofNat 64 (odGet s (od 0x5870 3)), index := BitVec.ofNat 16 (odGet s (od 0x5870 4)), startAt := 0
      failing := 0, notices := [] }
    actPrepare (odSet (odSet s (od 0x5870 7) 0xFF) (od 0x5870 9) 0) none m
  else s

/-- Is an address of the substitution list one that a spare can take (R275, R276)? -/
def substitutable (s : State) (x : Nat) : Bool :=
  x < 2 ^ 20 && (countFrom 0 4).all fun a =>
    if axisCount s ≤ a then onAxis x a = 0 else onAxis x a < max 1 (logicalLine s a)

/-- Is a substitution list refused (R276, R277)? -/
def substitutionRefused (s : State) (subs : List Nat) : Bool :=
  16 < subs.length || !subs.all (substitutable s) || !subs.Nodup || relayConflict s subs
    || (!subs.isEmpty && (spareAxis s).isNone)

/-- Keep OD 3A00.02: the held logical address, none for a FAULTED device whose address is substituted (R276, R324). -/
def showAddress (s : State) : State :=
  let v := if odGet s (od 0x3A00 4) = 0 then 0xFFFFFFFF else (ownLogical s).getD 0xFFFFFFFF
  odSet s (od 0x3A00 2) v

/-- The substitution list or its count has been written (R229, R276, R324): addresses change hands and the master's place
may move. -/
def takeSubstitution (s : State) : State := retime (showAddress s) false

end Sys2Proof.Machine
end

