-- ==== Sys2Proof/Machine/Dictionary.lean ====
section
/-! DEFINITION. Writes of the object dictionary: the checks of R359, the effect of each object, the journal, and the
commands that are a write of one object (R356 to R363, R373, R374 and the rules of the objects). -/

namespace Sys2Proof.Machine

/-- Does the management ring work: the part is out of reset, and Q0's PLL is locked and Q0 is not held (R364)? -/
def ringAlive (s : State) : Bool := bitAt (odGet s (od 0x2420 1)) 2 && Table.look s.boot.dieReset 0 2 = 0

/-- Does anything answer dictionary requests on a path (R378, R397, R449, Table 14.9)? A part that is strapped for test serves
nothing, and a steward that does not run serves nothing outside BOOT. -/
def serverAlive (s : State) (p : Path) : Bool :=
  ringAlive s && !s.pins.testEn &&
  (if deviceState s = stBoot then p = .ring0 || p = .ring1
   else s.boot.runningFirmware && (p ≠ .bar2 || attachMode s ≠ 0))

/-- The index areas that are served in BOOT (R397). -/
def bootArea (index : Nat) : Bool :=
  index = 0x1000 || index = 0x1001 || index = 0x1100 || index = 0x1200 || (0x1280 ≤ index && index < 0x1300)
    || index = 0x5000 || index = 0x5200 || index = 0x5300

/-- Is an object served in the device's state (R359, step 3)? -/
def objServed (s : State) (id : Nat) : Bool := deviceState s ≠ stBoot || bootArea (id / 256)

/-- May RWS objects be written (R357)? -/
def rwsOpen (s : State) : Bool :=
  (deviceState s = stCalibrating || deviceState s = stReady || deviceState s = stStopped || deviceState s = stFaulted)
    && !startPrepared s

/-- Index ranges of objects that share a rule. -/
def isPlanEntry (id : Nat) : Bool := od 0x2000 0x10 ≤ id && id ≤ od 0x2000 0x17
def isPublisher (id : Nat) : Bool := od 0x5100 1 ≤ id && id ≤ od 0x5100 0x10
def isOverflowFlags (id : Nat) : Bool :=
  id % 256 = 0x31 && (id / 256 = 0x4880 || id / 256 = 0x4881 || (0x48C0 ≤ id / 256 && id / 256 < 0x48D8)
    || (0x4900 ≤ id / 256 && id / 256 < 0x4A20))

/-- A value with its reserved fields at zero: what is written to them is ignored (R12). -/
def maskReserved (id v : Nat) : Nat :=
  if id = od 0x1100 0x14 then v &&& 2
  else if id = od 0x4400 1 then v &&& 3
  else if id = od 0x2400 3 then v % 2 ^ 20
  else if isPlanEntry id then v - bits v 7 4 * 16
  else if (counterOfConfig id).isSome then v - bits v 28 27 * 2 ^ 27
  else v

/-- Are line lengths in the limits of Table 11.1, or not given at all? -/
def lengthsAllowed (s : State) (v : Nat) : Bool :=
  let most := if axisCount s = 4 then 13 else 17
  v = 0 || (countFrom 0 (axisCount s)).all fun a => 1 ≤ onAxis v a && onAxis v a ≤ most

/-- Is a coordinate below the line length on every axis, with zeros above the last (R275)? Where no lengths are given yet, any
may be written (DESIGN CHOICE, log entry 57). -/
def coordinateAllowed (s : State) (v : Nat) : Bool :=
  odGet s (od 0x3A00 4) = 0 ||
    (v < 2 ^ (5 * axisCount s) && (countFrom 0 (axisCount s)).all fun a => onAxis v a < lineLength s a)

/-- Is the scalar value one that R356 and the object's table allow (R359, step 8)? -/
def scalarAllowed (s : State) (r : ObjRow) (id v : Nat) : Bool :=
  r.lo ≤ v && v ≤ r.hi && v % r.multiple = 0
    && !(id = od 0x1100 1 && bitAt v 40)
    && !(id = od 0x2800 3 && decide (odGet s (od 0x2800 2) < v))
    && !(id = od 0x2801 2 && decide (odGet s (od 0x2801 1) < v + 80))
    && !(id = od 0x5120 2 && v = 4)
    && !(id = od 0x3A00 5 && 4 ≤ v && v ≠ 0xFF)
    && (id ≠ od 0x3A00 4 || lengthsAllowed s v)
    && (id ≠ od 0x3A00 1 || coordinateAllowed s v)
    && !(isPlanEntry id && planValid v && planQuantum v = 0)
    && (match counterOfConfig id with
      | some i => configLegal i v
      | none => true)

/-- Is a byte a continuation byte of UTF-8 between two bounds? -/
def utf8Tail (b : Bytes) (i lo hi : Nat) : Bool := match b[i]? with
  | some x => lo ≤ x.toNat && x.toNat ≤ hi
  | none => false

/-- Length of the UTF-8 character that begins the bytes, 0 where none does (RFC 3629). -/
def utf8Char (b : Bytes) : Nat :=
  let x := (b.headD 0).toNat
  if x < 0x80 then 1
  else if 0xC2 ≤ x && x ≤ 0xDF then (if utf8Tail b 1 0x80 0xBF then 2 else 0)
  else if 0xE0 ≤ x && x ≤ 0xEF then
    (if utf8Tail b 1 (if x = 0xE0 then 0xA0 else 0x80) (if x = 0xED then 0x9F else 0xBF) && utf8Tail b 2 0x80 0xBF then 3 else 0)
  else if 0xF0 ≤ x && x ≤ 0xF4 then
    (if utf8Tail b 1 (if x = 0xF0 then 0x90 else 0x80) (if x = 0xF4 then 0x8F else 0xBF) && utf8Tail b 2 0x80 0xBF
        && utf8Tail b 3 0x80 0xBF then 4 else 0)
  else 0

/-- Is a string valid UTF-8 (R356)? `fuel` bounds its characters. -/
def utf8Valid : Nat → Bytes → Bool
  | _, [] => true
  | 0, _ => false
  | fuel + 1, b => let n := utf8Char b; n ≠ 0 && utf8Valid fuel (b.drop n)

/-- Is a length of a STR or DOMAIN value one that R356 and the object's layout allow? -/
def lengthAllowed (id n : Nat) : Bool :=
  if id = od 0x1100 9 then n ≤ 255
  else if id = od 0x3A00 7 then n % 4 = 0 && n ≤ 64
  else if id = od 0x5010 1 then n = 32
  else if isPublisher id then n = 0 || n = 32
  else if id = od 0x5200 0x11 then 1 ≤ n && n ≤ 65536
  else n ≤ 65536

/-- Is a STR or DOMAIN value one that R356 and the object's layout allow? -/
def bytesAllowed (id : Nat) (b : Bytes) : Bool :=
  lengthAllowed id b.length &&
  (if id = od 0x1100 9 then utf8Valid b.length b
   else if id = od 0x3A00 7 then (countFrom 0 (b.length / 4)).all fun i => field b (4 * i) 4 < 2 ^ 20
   else true)

/-- The first n addresses of a substitution list. -/
def listOf (b : Bytes) (n : Nat) : List Nat := (countFrom 0 (min n (b.length / 4))).map fun i => field b (4 * i) 4

/-- Would a write of a count or a list give a substitution list that is refused (R276, R277)? -/
def shapeRefused (s : State) (id v : Nat) (b : Bytes) : Bool :=
  if id = od 0x3A00 6 then substitutionRefused s (listOf (odGetBytes s (od 0x3A00 7)) v)
  else if id = od 0x3A00 7 then substitutionRefused s (listOf b (odGet s (od 0x3A00 6)))
  else false

/-- Is a command object's command still running (R359, step 9)? -/
def commandBusy (s : State) (id : Nat) : Bool :=
  if id = od 0x5010 1 then s.cargo.attesting.isSome
  else if id = od 0x5120 2 then s.cargo.running.isSome
  else if id = od 0x5200 0x14 || id = od 0x5200 0x11 then s.cargo.firmware.isSome
  else if id = od 0x5860 4 then s.host.loading.isSome
  else if id = od 0x5870 6 then odGet s (od 0x5870 7) = 0xFF && s.start.msg.isSome
  else if id = od 0x5880 5 then s.host.copyTo.isSome
  else if id = od 0x1170 3 then odGet s (od 0x1170 7) = 1
  else false

/-- Is a write refused by the object's own rule (R359, step 9)? -/
def ownRefused (s : State) (id v : Nat) (b : Bytes) : Bool :=
  (isBalancing id && v = 1 && odGet s (od (id / 256) 6) = 0)
    || (isPlanEntry id && planValid v && !resident s (planSlot v))
    || (isPublisher id && b.length = 32 && (countFrom 0 16).any fun i => od 0x5100 (1 + i) ≠ id && publisherKey s i = b)
    || (id = od 0x5200 0x14 && v = 3 && !s.cargo.verifiedSince)
    || (id = od 0x5200 0x11 && (odGet s (od 0x5200 0x10) % 256 ≠ 0 || 0x800000 < odGet s (od 0x5200 0x10) + b.length))
    || (id = od 0x5880 5 && !copyAllowed s)
    || (id = od 0x4C00 6 && v = 1 && tallyRefused s)
    || shapeRefused s id v b

/-- The last check of R359: not served in BOOT (R397), busy, or the object's own rule. -/
def ownStatus (s : State) (id v : Nat) (b : Bytes) : Nat :=
  if id = od 0x5200 0x14 && deviceState s = stBoot && (v = 1 || v = 3 || v = 5) then 0x0D
  else if commandBusy s id then 0x08
  else if ownRefused s id v b then 0x0A
  else 0

/-- Steps 2 to 5 of R359: the object exists, is served, and may be written in this state. -/
def accessStatus (s : State) (id : Nat) : Nat :=
  match objRow id with
  | none => 0x02
  | some r =>
    if !objServed s id then 0x0D
    else if r.access = .ro || r.access = .const then 0x03
    else if r.access = .rws && !rwsOpen s then 0x04
    else 0

/-- Is a write's form the object's: a whole value (`long`) for STR and DOMAIN, else the bytes of its type (step 6)? -/
def formOk (id : Nat) (b : Bytes) (long : Bool) : Bool :=
  match objRow id with
  | none => false
  | some r => r.type.long = long && (long || b.length = r.type.bytes)

/-- The status of a write (R359). `early` is what the path itself found: 0x06 of step 6, 0x07 or 0x08 of step 7, or 0x05 of
step 8. -/
def writeStatus (s : State) (id : Nat) (b : Bytes) (long : Bool) (early : Option Nat) : Nat :=
  let st := accessStatus s id
  if st ≠ 0 then st
  else if early = some 0x06 || !formOk id b long then 0x06
  else match early, objRow id with
    | some e, _ => e
    | none, none => 0x02
    | none, some r =>
      let v := maskReserved id (leNat b)
      if !(if long then bytesAllowed id b else scalarAllowed s r id v) then 0x05
      else
        let own := ownStatus s id (if long then 0 else v) b
        if own ≠ 0 then own
        else if isPostTimed id && (runs s || isBankSwitch id || id = od 0x2020 5 || id = od 0x2028 5) then 0x01
        else 0x00

/-- The old value of a journal entry (R376). -/
def journalOld (s : State) (id : Nat) : Nat := match objRow id with
  | none => 0
  | some r => if r.type.long then bytesWord (odReadBytes s r id) else odRead s r id

/-- The new value of an entry: of a scalar the one that the write leaves, or, refused, the one asked for as it came (R360, R376). -/
def journalNew (s : State) (id st : Nat) (asked : Bytes) (long : Bool) : Nat :=
  let long := match objRow id with
    | none => long
    | some r => r.type.long
  let v := leNat (asked.take 8)
  if long then bytesWord asked
  else if 1 < st then v
  else if isOverflowFlags id then odGet s id &&& maskReserved id v
  else maskReserved id v

/-- Is an object STR or DOMAIN? -/
def longObject (id : Nat) : Bool := match objRow id with
  | none => false
  | some r => r.type.long

/-- Removes the record with a sequence number and every earlier one (R322). -/
def acknowledgeRecords (s : State) (v : Nat) : State :=
  { s with escalations := s.escalations.filter fun r => 32768 ≤ (v + 65536 - recordSeq r) % 65536 }

/-- Has step 6 of the start-up begun (R455, R458)? -/
def linksBegun (s : State) : Bool := stepDone s .rails && odGet s (od 0x3A00 4) ≠ 0

/-- One link retrains after a change of the shape (R458): a link that carries traffic does as for a retrain request, an
attempt that runs starts over. -/
def reshapeLink (s : State) (l : Nat) : State :=
  if training s l then endAttempt s l else applyRetrain s l

/-- Does the object belong to the domain shape (R458)? -/
def isShape (id : Nat) : Bool :=
  id = od 0x3A00 1 || id = od 0x2400 3 || (od 0x3A00 3 ≤ id && id ≤ od 0x3A00 7)

/-- The domain shape has been written (R229, R276, R324, R458, R459). `begun` says that step 6 had begun before the write. -/
def takeShape (s : State) (begun changed : Bool) (id : Nat) : State :=
  let s := showAddress s
  let s := if deviceState s = stCalibrating && holdsMaster s then surveyStarts s else retime s false
  if begun && changed && id ≠ od 0x3A00 1 then (countFrom 0 48).foldl reshapeLink (odSet s (od 0x3A00 8) 0) else s

/-- Effect of a post-timed write (R362, R363): stored, and applied at once where nothing makes it wait, in place of an earlier write
that still waited for a post.
A landing written before one that is latched has applied replaces it, and only the new one is applied, at the next latch (R207). -/
def postWrite (s : State) (id v : Nat) (waits : Bool) : State :=
  let pending := odGet s id = 1
  let s := odSet s id v
  if !waits then
    let d := s.dict
    postTimedEffect { s with dict := { d with pendingPost := d.pendingPost.filter (· ≠ id), latch := d.latch.filter fun x => x.1 ≠ id } } [] id v
  else
    let ids := if s.dict.pendingPost.contains id then s.dict.pendingPost else id :: s.dict.pendingPost
    let s := { s with dict := { s.dict with pendingPost := ids } }
    if id ≠ od 0x2028 5 then s
    else if v = 1 then
      let latch := s.dict.latch.filter fun x => x.1 ≠ id
      odSet { s with dict := { s.dict with latch := latch } } (od 0x2028 6) (if pending then 4 else 3)
    else if pending then odSet s (od 0x2028 6) 0 else s

/-- Effect of a write of a scalar object, except the window command (the rules of the objects). -/
def scalarEffect (s : State) (id v : Nat) (st : Nat) : State :=
  if isPostTimed id then postWrite s id v (st = 0x01)
  else if isOverflowFlags id then odSet s id (odGet s id &&& v)
  else if isShape id then takeShape (odSet s id v) (linksBegun s) (odGet s id ≠ v) id
  else if id = od 0x4400 5 then acknowledgeRecords s v
  else if id = od 0x4800 9 then acknowledgeSamples s v
  else if id = od 0x4C00 6 then (if v = 1 then armTally s else disarmTally s)
  else if id = od 0x5120 2 then cargoCommand s v
  else if id = od 0x5200 0x14 then firmwareCommand s v
  else if id = od 0x5850 1 then setLogMode s v
  else if id = od 0x5860 4 then (if v = 1 then load s else unload s)
  else if id = od 0x5870 6 then startJob s
  else if id = od 0x5880 5 then startCopy s
  else if id = od 0x1170 3 then s
  else odSet s id v

/-- Effect of a write of a STR or DOMAIN object. -/
def bytesEffect (s : State) (id : Nat) (b : Bytes) : State :=
  if id = od 0x5010 1 then takeNonce s b
  else if id = od 0x5200 0x11 then takeChunk s b
  else if id = od 0x3A00 7 then takeShape (odSetBytes s id b) (linksBegun s) (odGetBytes s id ≠ b) id
  else odSetBytes s id b

/-- What a refused write leaves (R324, R436): nothing but the state of a refused tally and the status of a refused
substitution. -/
def refusedEffect (s : State) (id st : Nat) : State :=
  if st ≠ 0x0A then s
  else if id = od 0x4C00 6 then odSet s (od 0x4C00 7) 3
  else if id = od 0x3A00 6 || id = od 0x3A00 7 then odSet s (od 0x3904 4) 0x38
  else s

/-- One write is judged, journaled and carried out (R359 to R363). `asked` is the value as its path carried it. -/
def serveWrite (s : State) (rq : Requester) (id : Nat) (b : Bytes) (long : Bool) (early : Option Nat) (asked : Bytes) :
    State × Nat :=
  let st := writeStatus s id b long early
  let s := addJournal s (pathCode rq.path) rq.source.toNat id st (journalFlags (isPostTimed id) false (longObject id))
    (journalOld s id) (journalNew s id st asked long)
  if 1 < st then (refusedEffect s id st, st)
  else if long then (bytesEffect s id b, st)
  else (scalarEffect s id (maskReserved id (leNat b)) st, st)

/-- A write request that its path refuses with 0x09 is journaled; any other request is not (R376). -/
def journalRefused (s : State) (rq : Requester) (op id : Nat) (b : Bytes) : State :=
  if op ≠ 3 && op ≠ 7 then s
  else addJournal s (pathCode rq.path) rq.source.toNat id 0x09 (journalFlags (isPostTimed id) false (longObject id))
    (journalOld s id) (journalNew s id 0x09 b (op = 7))

/-- Bytes of an object: a STR or DOMAIN value, or a scalar of its type's size. -/
def objectBytes (s : State) (r : ObjRow) (id : Nat) : Bytes :=
  if r.type.long then odReadBytes s r id else leBytes (odRead s r id) r.type.bytes

/-- Bytes of the transfer window (R374). -/
def windowBytes (s : State) (i n : Nat) : Bytes := Memory.read s.dict.window 0 i n

/-- Put bytes into the transfer window from its start, with their length in OD 1170.02. -/
def fillWindow (s : State) (b : Bytes) : State :=
  odSet { s with dict := { s.dict with window := Memory.write s.dict.window 0 0 b } } (od 0x1170 2) b.length

/-- A window command ends (R374): 2 done, or 3 failed with its status. -/
def endWindow (s : State) (st : Nat) : State :=
  if st ≤ 1 then odSet s (od 0x1170 7) 2 else odSet (odSet s (od 0x1170 4) st) (od 0x1170 7) 3

/-- Is a GDP operation a request (Table 14.6)? -/
def requestOp (op : Nat) : Bool := op = 1 || op = 3 || op = 5 || op = 7 || op = 0x0A
/-- Is it a reply or an Event, which is no request (R367)? -/
def replyOp (op : Nat) : Bool := op = 2 || op = 4 || op = 6 || op = 8 || op = 9 || op = 0x0B

/-- Send a tunnelled request and remember it (R370, R374). A gateway without a logical address reaches nobody. -/
def startTunnel (s : State) (pdu : Bytes) (target : Nat) (back : Option (Bool × BitVec 48)) (vlan : Bytes) : State :=
  let (s, tag) := newTag s fromSteward
  let x : Tunnel := { op := field pdu 1 1, transaction := BitVec.ofNat 32 (beNat (slice pdu 4 4))
                      id := beNat (slice pdu 8 3), segment := beNat (slice pdu 14 2), target := BitVec.ofNat 20 target
                      back := back, vlan := vlan, tag := tag, sent := now s }
  let s := { s with dict := { s.dict with tunnels := s.dict.tunnels ++ [x] } }
  if 2 ^ 20 ≤ logicalAddress s then endTunnel s x 0x0C else sendDynamic s (target % 2 ^ 20) 0x03 tag pdu

/-- Window command 3 (R374): the bytes must form one GDP request without a tunnel field. -/
def windowTunnel (s : State) : State :=
  let n := odGet s (od 0x1170 2)
  let b := windowBytes s 0 n
  let data := beNat (slice b 12 2)
  if n < 16 || n ≠ 16 + data || 120 < data then endWindow s 0x06
  else if field b 3 1 % 2 = 1 || !requestOp (field b 1 1) then endWindow s 0x09
  else startTunnel s b (odGet s (od 0x1170 6)) none []

/-- The command of a write to OD 1170.03 (R374). The window is busy while it runs. -/
def windowCommand (s : State) (rq : Requester) (v : Nat) : State :=
  let s := odSet s (od 0x1170 7) 1
  let id := odGet s (od 0x1170 1)
  match v with
  | 1 => match objRow id with
    | none => endWindow s 0x02
    | some r => endWindow (fillWindow s (objectBytes s r id)) 0
  | 2 =>
    let b := windowBytes s 0 (odGet s (od 0x1170 2))
    let (s, st) := serveWrite s rq id b (longObject id) none b
    endWindow s st
  | _ => windowTunnel s

/-- A write with what its path shows of it (R373, R374): over BAR2 its status and object stand in OD 1170.04 and
OD 1170.05. -/
def pathWrite (s : State) (rq : Requester) (id : Nat) (b : Bytes) (long : Bool) (early : Option Nat) (asked : Bytes) :
    State × Nat :=
  let (s, st) := serveWrite s rq id b long early asked
  let s := if rq.path = .bar2 then odSet (odSet s (od 0x1170 4) st) (od 0x1170 5) (id % 2 ^ 24) else s
  (if id = od 0x1170 3 && st = 0 then windowCommand s rq (leNat b) else s, st)

/-- A write that arrives as a command of its own: served where its path is served (log entry 38). -/
def ownWrite (s : State) (rq : Requester) (id : Nat) (b : Bytes) (long : Bool) : State :=
  if serverAlive s rq.path then (pathWrite s rq id b long none b).1 else s

/-- The BAR2 requester with a requester ID. -/
def bar2Requester (requester : BitVec 16) : Requester := ⟨.bar2, requester.setWidth 64⟩

/-- SUBSTITUTION (R276, R324): the count, then the list. -/
def execSubstitution (rq : Requester) (addresses : Bytes) (s : State) : Host.Outcome State Fault Refusal :=
  let s := ownWrite s rq (od 0x3A00 6) [BitVec.ofNat 8 (addresses.length / 4)] false
  .next (ownWrite s rq (od 0x3A00 7) addresses true)

/-- START_COMMAND (R348). -/
def execStartCommand (rq : Requester) (value : Byte) (s : State) : Host.Outcome State Fault Refusal :=
  .next (ownWrite s rq (od 0x5870 6) [value] false)

/-- STOP_REQUEST (R352): the vote unit takes the stored request at the next vote. -/
def execStopRequest (rq : Requester) (value : Byte) (s : State) : Host.Outcome State Fault Refusal :=
  .next (ownWrite s rq (od 0x5800 5) [value] false)

/-- FABRIC_COPY (R346). -/
def execFabricCopy (rq : Requester) (value : Byte) (s : State) : Host.Outcome State Fault Refusal :=
  .next (ownWrite s rq (od 0x5880 5) [value] false)

/-- LOAD (R347): load command 1. -/
def execLoad (rq : Requester) (s : State) : Host.Outcome State Fault Refusal := .next (ownWrite s rq (od 0x5860 4) [1] false)

/-- UNLOAD (R347): load command 2. -/
def execUnload (rq : Requester) (s : State) : Host.Outcome State Fault Refusal := .next (ownWrite s rq (od 0x5860 4) [2] false)

/-- WINDOW_READ (R374): window command 1. -/
def execWindowRead (requester : BitVec 16) (s : State) : Host.Outcome State Fault Refusal :=
  .next (ownWrite s (bar2Requester requester) (od 0x1170 3) [1] false)

/-- WINDOW_WRITE (R374): window command 2. -/
def execWindowWrite (requester : BitVec 16) (s : State) : Host.Outcome State Fault Refusal :=
  .next (ownWrite s (bar2Requester requester) (od 0x1170 3) [2] false)

/-- WINDOW_TUNNEL (R374): window command 3. -/
def execWindowTunnel (requester : BitVec 16) (s : State) : Host.Outcome State Fault Refusal :=
  .next (ownWrite s (bar2Requester requester) (od 0x1170 3) [3] false)

/-- BANK_SWITCH_REQUEST (R78). -/
def execBankSwitchRequest (rq : Requester) (core : CoreId) (value : Byte) (s : State) : Host.Outcome State Fault Refusal :=
  .next (ownWrite s rq (od (0x3000 + core.val) 4) [value] false)

/-- ARM (R214). -/
def execArm (rq : Requester) (value : Byte) (s : State) : Host.Outcome State Fault Refusal :=
  .next (ownWrite s rq (od 0x2020 5) [value] false)

/-- LAND_REQUEST (R207). -/
def execLandRequest (rq : Requester) (value : Byte) (s : State) : Host.Outcome State Fault Refusal :=
  .next (ownWrite s rq (od 0x2028 5) [value] false)

/-- BALANCING_ENABLE (R209). -/
def execBalancingEnable (rq : Requester) (slot : SlotId) (value : Byte) (s : State) : Host.Outcome State Fault Refusal :=
  .next (ownWrite s rq (od (0x2010 + slot.val) 7) [value] false)

/-- TARGET_STEP (R241). -/
def execTargetStep (rq : Requester) (value : Byte) (s : State) : Host.Outcome State Fault Refusal :=
  .next (ownWrite s rq (od 0x2410 1) [value] false)

/-- RETRAIN_REQUEST (R268). -/
def execRetrainRequest (rq : Requester) (link : LinkId) (value : Byte) (s : State) : Host.Outcome State Fault Refusal :=
  .next (ownWrite s rq (od (linkIndex link.val) 0x20) [value] false)

/-- RETIRE_REQUEST (R268). -/
def execRetireRequest (rq : Requester) (link : LinkId) (value : Byte) (s : State) : Host.Outcome State Fault Refusal :=
  .next (ownWrite s rq (od (linkIndex link.val) 0x21) [value] false)

/-- ROTATION_PLAN_WRITE (R211). -/
def execRotationPlanWrite (rq : Requester) (entry : Fin 8) (value : BitVec 32) (s : State) :
    Host.Outcome State Fault Refusal :=
  .next (ownWrite s rq (od 0x2000 (0x10 + entry.val)) (leBytes value.toNat 4) false)

/-- ACKNOWLEDGE (R322). -/
def execAcknowledge (rq : Requester) (value : BitVec 16) (s : State) : Host.Outcome State Fault Refusal :=
  .next (ownWrite s rq (od 0x4400 5) (leBytes value.toNat 2) false)

/-- SHAPE_WRITE (R458): a write of an object of the domain shape; the command names no other object. -/
def execShapeWrite (rq : Requester) (index : BitVec 16) (sub : BitVec 8) (value : Bytes) (s : State) :
    Host.Outcome State Fault Refusal :=
  let id := od index.toNat sub.toNat
  .next (if isShape id then ownWrite s rq id value (longObject id) else s)

/-- ATTESTATION_NONCE (R384). -/
def execAttestationNonce (rq : Requester) (nonce : Bytes) (s : State) : Host.Outcome State Fault Refusal :=
  .next (ownWrite s rq (od 0x5010 1) nonce true)

/-- TRUSTED_PUBLISHER_WRITE (R387). -/
def execTrustedPublisherWrite (rq : Requester) (entry : Fin 16) (key : Bytes) (s : State) : Host.Outcome State Fault Refusal :=
  .next (ownWrite s rq (od 0x5100 (1 + entry.val)) key true)

/-- CARGO_OPEN (R388): cargo command 1. -/
def execCargoOpen (rq : Requester) (s : State) : Host.Outcome State Fault Refusal := .next (ownWrite s rq (od 0x5120 2) [1] false)

/-- CARGO_PAGES_COPY (R390): cargo command 2. -/
def execCargoPagesCopy (rq : Requester) (s : State) : Host.Outcome State Fault Refusal :=
  .next (ownWrite s rq (od 0x5120 2) [2] false)

/-- CARGO_PAGES_IN_PLACE (R390): cargo command 3. -/
def execCargoPagesInPlace (rq : Requester) (s : State) : Host.Outcome State Fault Refusal :=
  .next (ownWrite s rq (od 0x5120 2) [3] false)

/-- CARGO_RELEASE (R393): cargo command 5. -/
def execCargoRelease (rq : Requester) (s : State) : Host.Outcome State Fault Refusal :=
  .next (ownWrite s rq (od 0x5120 2) [5] false)

/-- CHUNK (R398). -/
def execChunk (rq : Requester) (payload : Bytes) (s : State) : Host.Outcome State Fault Refusal :=
  .next (ownWrite s rq (od 0x5200 0x11) payload true)

/-- FIRMWARE_PROGRAM (R398): firmware command 1. -/
def execFirmwareProgram (rq : Requester) (s : State) : Host.Outcome State Fault Refusal :=
  .next (ownWrite s rq (od 0x5200 0x14) [1] false)

/-- FIRMWARE_VERIFY (R398): firmware command 2. -/
def execFirmwareVerify (rq : Requester) (s : State) : Host.Outcome State Fault Refusal :=
  .next (ownWrite s rq (od 0x5200 0x14) [2] false)

/-- SET_TRIAL (R398): firmware command 3. -/
def execSetTrial (rq : Requester) (s : State) : Host.Outcome State Fault Refusal :=
  .next (ownWrite s rq (od 0x5200 0x14) [3] false)

/-- COMMIT (R398): firmware command 4. -/
def execCommit (rq : Requester) (s : State) : Host.Outcome State Fault Refusal :=
  .next (ownWrite s rq (od 0x5200 0x14) [4] false)

/-- RAISE_FUSE_FLOOR (R398): firmware command 5. -/
def execRaiseFuseFloor (rq : Requester) (s : State) : Host.Outcome State Fault Refusal :=
  .next (ownWrite s rq (od 0x5200 0x14) [5] false)

/-- ERASE (R398): firmware command 6. -/
def execErase (rq : Requester) (s : State) : Host.Outcome State Fault Refusal :=
  .next (ownWrite s rq (od 0x5200 0x14) [6] false)

/-- COUNTER_CONFIGURATION_WRITE (R425). -/
def execCounterConfigurationWrite (rq : Requester) (counter : Fin 2528) (value : BitVec 32) (s : State) :
    Host.Outcome State Fault Refusal :=
  .next (ownWrite s rq (counterPlace counter.val).config (leBytes value.toNat 4) false)

/-- SAMPLE_ACKNOWLEDGE (R431). -/
def execSampleAcknowledge (rq : Requester) (value : BitVec 32) (s : State) : Host.Outcome State Fault Refusal :=
  .next (ownWrite s rq (od 0x4800 9) (leBytes value.toNat 4) false)

/-- TALLY_ARM (R436). -/
def execTallyArm (rq : Requester) (s : State) : Host.Outcome State Fault Refusal := .next (ownWrite s rq (od 0x4C00 6) [1] false)

/-- TALLY_DISARM (R436). -/
def execTallyDisarm (rq : Requester) (s : State) : Host.Outcome State Fault Refusal :=
  .next (ownWrite s rq (od 0x4C00 6) [2] false)

end Sys2Proof.Machine
end

