-- ==== Sys2Proof/Machine/LoadStore.lean ====
section
/-! DEFINITION. The commands of the L and T slots: each issues its one operation (R64, R151 to R153; log entry 16). -/

namespace Sys2Proof.Machine

/-- LD (R64). -/
def execLd (core : CoreId) (v : BitVec 5) (g : BitVec 4) (off : BitVec 16) (s : State) :
    Host.Outcome State Fault Refusal :=
  .next (issueSlot s core.val (.l (.ld v g off)))

/-- LDX (R64). -/
def execLdx (core : CoreId) (x : BitVec 3) (g : BitVec 4) (off : BitVec 16) (s : State) :
    Host.Outcome State Fault Refusal :=
  .next (issueSlot s core.val (.l (.ldx x g off)))

/-- DLD (R152). -/
def execDld (core : CoreId) (desc : BitVec 5) (useX : Bool) (x : BitVec 3) (s : State) :
    Host.Outcome State Fault Refusal :=
  .next (noteTrackers (issueSlot s core.val (.l (.dld desc useX x))))

/-- ST (R64). -/
def execSt (core : CoreId) (v : BitVec 5) (g : BitVec 4) (off : BitVec 16) (s : State) :
    Host.Outcome State Fault Refusal :=
  .next (issueSlot s core.val (.t (.st v g off)))

/-- STX (R64). -/
def execStx (core : CoreId) (x : BitVec 3) (g : BitVec 4) (off : BitVec 16) (s : State) :
    Host.Outcome State Fault Refusal :=
  .next (issueSlot s core.val (.t (.stx x g off)))

/-- DST (R152). -/
def execDst (core : CoreId) (desc : BitVec 5) (useX : Bool) (x : BitVec 3) (s : State) :
    Host.Outcome State Fault Refusal :=
  .next (noteTrackers (issueSlot s core.val (.t (.dst desc useX x))))

end Sys2Proof.Machine
end

