-- ==== Sys2Proof/Machine/Matrix.lean ====
section
/-! DEFINITION. The commands of the matrix unit (R39 to R46, R96 to R104; log entry 16). -/

namespace Sys2Proof.Machine

/-- The cycle in which the first waiting M operation may enter: the one after its predecessor retires its last
k-step (R42); the current cycle where none is before it. -/
def entryCycle (c : Core) : List MatrixOp → Option (MatrixOp × Nat)
  | [] => none
  | m :: r =>
    match m.enter, r with
    | none, _ => some (m, c.cycle)
    | some e, q :: _ => if q.enter.isNone then some (q, e + m.cycles) else entryCycle c r
    | some _, [] => none

/-- The first waiting M operation of logical core n enters the array, once its cycle has come. -/
def nextMatrix (s : State) (n : Nat) : State :=
  let c := coreOf s n
  match entryCycle c c.mops with
  | some (m, e) => if e ≤ c.cycle then enterArray s n m e else s
  | none => s

/-- Remove the first complete operation of a list. -/
def dropComplete (b0 : Bool) (t : Nat) : List MatrixOp → List MatrixOp
  | [] => []
  | m :: r => if m.complete b0 t then r else m :: dropComplete b0 t r

/-- The first complete M operation of logical core n leaves (R43). -/
def completeMatrix (s : State) (n : Nat) : State :=
  modCoreOf s n fun c => { c with mops := dropComplete (isB0 s) c.cycle c.mops }

/-- Is the drain's next row due (R44)? -/
def DrainOp.due (d : DrainOp) (b0 : Bool) (t : Nat) : Bool := !d.landed && d.visibleAt b0 d.row ≤ t

/-- A ledger row of a drain becomes visible: the ledgers as they were read; a row whose read failed is not written (R101,
R104, R125). -/
def writeLedgers (s : State) (n : Nat) (d : DrainOp) (a : Nat) : State :=
  match d.ledgers.find? fun x => x.1 = d.row with
  | some (_, some b) => storeBytes s n a b
  | _ => s

/-- A drained row lands in register r; in a shadow window in its copy from before the window too, since the row is
no write of the window (R72). -/
def Core.landRow (c : Core) (r : Nat) (v : BitVec 4096) : Core :=
  let keep (g : BranchRegion) : BranchRegion :=
    if g.resolved then g else { g with saved := { g.saved with v := Table.put g.saved.v 0 r v } }
  (c.setV r v).modRegion keep

/-- A row of a drain arrives at its destination (R44, Table 3.8). -/
def writeRow (s : State) (n : Nat) (d : DrainOp) : State :=
  let w := rowWidth d.mode d.fmt.toNat
  if d.mode = 0 then
    if d.row < d.count then
      modCoreOf s n fun c => c.landRow ((d.dest + d.row) % 32) (BitVec.ofNat 4096 (packElements 32 ((d.rowWords d.row).map (·.toNat))))
    else s
  else if d.mode ≤ 2 then storeBytes s n (d.dest + d.row * w) (d.rowBytes (envOf s n) d.row)
  else writeLedgers s n d (d.dest + d.row * w)

/-- The drains after row `row` of `d` has arrived. A drain whose last row has arrived stays until its paths are free. -/
def stepDrain (d : DrainOp) : List DrainOp → List DrainOp
  | [] => []
  | x :: r => if x = d then { d with row := d.row + 1 } :: r else x :: stepDrain d r

/-- The next due row of a drain of logical core n becomes visible (R44). -/
def drainRow (s : State) (n : Nat) : State :=
  let c := coreOf s n
  match c.drains.find? fun d => d.due (isB0 s) c.cycle with
  | none => s
  | some d => writeRow (modCoreOf s n fun c => { c with drains := stepDrain d c.drains }) n d

/-- MMA (R96). -/
def execMma (core : CoreId) (bank acc : Bool) (fmtA fmtB : BitVec 4) (k : BitVec 16) (agA agB : BitVec 4) (s : State) :
    Host.Outcome State Fault Refusal :=
  .next (issueSlot s core.val (.m (.mma bank acc fmtA fmtB k agA agB)))

/-- MATRIX_ENTER_ARRAY (R42). -/
def execMatrixEnterArray (core : CoreId) (s : State) : Host.Outcome State Fault Refusal :=
  .next (nextMatrix s core.val)

/-- MATRIX_COMPLETE (R43). -/
def execMatrixComplete (core : CoreId) (s : State) : Host.Outcome State Fault Refusal :=
  .next (completeMatrix s core.val)

/-- DRAIN (R44). -/
def execDrain (core : CoreId) (bank : Bool) (mode : BitVec 3) (fmt : BitVec 4) (rnd : BitVec 2) (count : BitVec 6)
    (dest : BitVec 5) (window : BitVec 11) (s : State) : Host.Outcome State Fault Refusal :=
  .next (issueSlot s core.val (.m (.drain bank mode fmt rnd count dest window)))

/-- DRAIN_ROW_VISIBLE (R44). -/
def execDrainRowVisible (core : CoreId) (s : State) : Host.Outcome State Fault Refusal :=
  .next (drainRow s core.val)

end Sys2Proof.Machine
end

