-- ==== Sys2Proof/Machine/Requests.lean ====
section
/-! DEFINITION. Requests to the dictionary on its three paths: GDP operations, segmented transfers, the management ring,
tunnels and BAR2 accesses (R364 to R375). -/

namespace Sys2Proof.Machine

/-- A reply to a GDP request: its operation, flags beyond the tunnel flag, object, status, segment and data. -/
structure Reply where
  op : Nat
  last : Bool
  id : Nat
  status : Nat
  segment : Nat
  data : Bytes
  deriving DecidableEq, Repr

/-- A reply leaves on the path of its request (R367, R375); BAR2 carries no GDP. -/
def answer (s : State) (rq : Requester) (vlan : Bytes) (transaction : Nat) (r : Reply) : State :=
  let pdu := gdpPdu s r.op (2 * flag r.last) transaction r.id r.status r.segment none r.data
  match rq.path with
  | .ring0 => sendFrame s false (gdpFrame s (rq.source.toNat % 2 ^ 48) vlan pdu)
  | .ring1 => sendFrame s true (gdpFrame s (rq.source.toNat % 2 ^ 48) vlan pdu)
  | .fabric =>
    let (s, tag) := newTag s fromSteward
    sendDynamic s (rq.source.toNat % 2 ^ 20) 0x03 tag pdu
  | .bar2 => s

/-- Bytes of a segment on a path (R368). -/
def segmentSize (p : Path) : Nat := if p = .fabric then 120 else 1024

/-- 100 ms and 10 ms in ticks (R368, R370). -/
def segmentGap : Nat := 125000000
def tunnelWait : Nat := 12500000

/-- Steps 2 and 3 of R359, for a read. -/
def readStatus (s : State) (id : Nat) : Nat :=
  if (objRow id).isNone then 0x02 else if !objServed s id then 0x0D else 0

/-- Status and data of a read by op 0x01: a scalar's value, or the length of a STR or DOMAIN (Table 14.6). -/
def serveRead (s : State) (id : Nat) : Nat × Bytes :=
  let st := readStatus s id
  match objRow id with
  | none => (0x02, [])
  | some r =>
    if st ≠ 0 then (st, [])
    else (0, if r.type.long then leBytes (odReadBytes s r id).length 4 else objectBytes s r id)

/-- The snapshots that are kept now (R368). -/
def keptSnapshots (s : State) : List Snapshot := s.dict.snapshots.filter fun x => now s ≤ x.last + segmentGap

/-- Segment k of a snapshot's bytes: status, data and whether it is the last (R368). -/
def segmentOf (b : Bytes) (size k : Nat) : Nat × Bytes × Bool :=
  if k ≠ 0 && b.length ≤ size * k then (0x07, [], false)
  else (0, (b.drop (size * k)).take size, decide (b.length ≤ size * (k + 1)))

/-- A segment read (R368): segment 0 takes a snapshot, of which at most 4 are kept. -/
def serveSegmentRead (s : State) (rq : Requester) (transaction : BitVec 32) (id k : Nat) : State × Nat × Bytes × Bool :=
  let st := readStatus s id
  match objRow id with
  | none => (s, 0x02, [], false)
  | some r =>
    if st ≠ 0 then (s, st, [], false)
    else if !r.type.long then (s, 0x06, [], false)
    else
      let mine (x : Snapshot) : Bool := x.requester = rq && x.transaction = transaction
      let kept := keptSnapshots s
      let others := kept.filter fun x => !mine x
      let found := if k = 0 then some (Snapshot.mk rq transaction id (odReadBytes s r id) (now s))
        else kept.find? fun x => mine x && x.id = id
      match found with
      | none => ({ s with dict := { s.dict with snapshots := kept } }, 0x07, [], false)
      | some x =>
        let (st, data, last) := segmentOf x.bytes (segmentSize rq.path) k
        let next := (others ++ [{ x with last := now s }])
        let next := next.drop (next.length - 4)
        ({ s with dict := { s.dict with snapshots := if st = 0 then next else kept } }, st, data, last)

/-- Close the open segmented write. -/
def closeSegment (s : State) : State := { s with dict := { s.dict with segment := none } }

/-- A gap of more than 100 ms has ended the open transfer (R368). -/
def expireSegment (s : State) : State := match s.dict.segment with
  | some x => if x.last + segmentGap < now s then closeSegment s else s
  | none => s

/-- Largest length of an object's value (Table 14.1). -/
def longLimit (id : Nat) : Nat := match objRow id with
  | some r => if r.type = .str then 255 else 65536
  | none => 0

/-- A segment that is refused is journaled as a refused write of what has come (R376). -/
def refuseSegment (s : State) (rq : Requester) (id : Nat) (b : Bytes) (early : Nat) : State × Nat :=
  serveWrite s rq id b true (some early) b

/-- A total length that the object's layout does not allow ends a segmented write with 0x07 (R368); that of a nonce or of a
publisher's key is refused with 0x05 (R384, R387). -/
def layoutLength (id : Nat) (b : Bytes) : Option Nat :=
  if id = od 0x5010 1 || isPublisher id || lengthAllowed id b.length then none else some 0x07

/-- A segment write (R368): the object is written whole when the last segment arrives. -/
def serveSegmentWrite (s : State) (rq : Requester) (transaction : BitVec 32) (id k : Nat) (last : Bool) (b : Bytes) :
    State × Nat :=
  let s := expireSegment s
  let size := segmentSize rq.path
  let mine (x : SegWrite) : Bool := x.requester = rq && x.transaction = transaction
  let lengthOk := b.length ≤ size && (last || b.length = size)
  match s.dict.segment with
  | none =>
    if k ≠ 0 || !lengthOk || longLimit id < b.length then refuseSegment s rq id b 0x07
    else if last then serveWrite s rq id b true (layoutLength id b) b
    else
      let st := accessStatus s id
      if st ≠ 0 || !longObject id then refuseSegment s rq id b 0x06
      else
        let x : SegWrite := { requester := rq, transaction := transaction, id := id, next := 1, bytes := b, last := now s }
        ({ s with dict := { s.dict with segment := some x } }, 0)
  | some x =>
    if !mine x then refuseSegment s rq id b (if k = 0 then 0x08 else 0x07)
    else
      let all := x.bytes ++ b
      let s := closeSegment s
      if x.id ≠ id || x.next ≠ k || !lengthOk || longLimit id < all.length then refuseSegment s rq id all 0x07
      else if last then serveWrite s rq id all true (layoutLength id all) all
      else if accessStatus s id ≠ 0 then refuseSegment s rq id all 0x07
      else
        let x := { x with next := k + 1, bytes := all, last := now s }
        ({ s with dict := { s.dict with segment := some x } }, 0)

/-- The 24 bytes of a Discover reply (R371). -/
def discoverBytes (s : State) : Bytes :=
  leBytes (odGet s (od 0x1000 1)) 4 ++ [s.fuses.orderingCode, s.fuses.stepping, BitVec.ofNat 8 (deviceState s), 0]
    ++ leBytes s.fuses.serial.toNat 8 ++ leBytes (coordinate s) 4 ++ leBytes (logicalAddress s) 4

/-- A GDP request is served and answered (R359, R367). -/
def serveGdp (s : State) (rq : Requester) (vlan : Bytes) (op transaction id segment : Nat) (last : Bool) (data : Bytes) :
    State :=
  let tr := BitVec.ofNat 32 transaction
  let reply (s : State) (status : Nat) (last : Bool) (data : Bytes) : State :=
    answer s rq vlan transaction ⟨op + 1, last, id, status, if op = 5 || op = 7 then segment else 0, data⟩
  match op with
  | 1 => let (st, b) := serveRead s id
    reply s st false b
  | 3 => let (s, st) := pathWrite s rq id data false none data
    reply s st false []
  | 5 => let (s, st, b, last) := serveSegmentRead s rq tr id segment
    reply s st last b
  | 7 => let (s, st) := serveSegmentWrite s rq tr id segment last data
    reply s st false []
  | 0x0A => reply s 0 false (discoverBytes s)
  | _ => reply s 0x09 false []

/-- A GDP operation that arrives as a command of its own. -/
def gdpCommand (s : State) (rq : Requester) (op : Nat) (transaction : BitVec 32) (id segment : Nat) (last : Bool)
    (data : Bytes) : State :=
  if serverAlive s rq.path then serveGdp s rq [] op transaction.toNat id segment last data else s

/-- READ (R367). -/
def execRead (rq : Requester) (transaction : BitVec 32) (index : BitVec 16) (sub : BitVec 8) (s : State) :
    Host.Outcome State Fault Refusal :=
  .next (gdpCommand s rq 1 transaction (od index.toNat sub.toNat) 0 false [])

/-- WRITE (R359). -/
def execWrite (rq : Requester) (transaction : BitVec 32) (index : BitVec 16) (sub : BitVec 8) (value : Bytes) (s : State) :
    Host.Outcome State Fault Refusal :=
  .next (gdpCommand s rq 3 transaction (od index.toNat sub.toNat) 0 false value)

/-- SEGMENT_READ (R368). -/
def execSegmentRead (rq : Requester) (transaction : BitVec 32) (index : BitVec 16) (sub : BitVec 8) (segment : BitVec 16)
    (s : State) : Host.Outcome State Fault Refusal :=
  .next (gdpCommand s rq 5 transaction (od index.toNat sub.toNat) segment.toNat false [])

/-- SEGMENT_WRITE (R368). -/
def execSegmentWrite (rq : Requester) (transaction : BitVec 32) (index : BitVec 16) (sub : BitVec 8) (segment : BitVec 16)
    (last : Bool) (value : Bytes) (s : State) : Host.Outcome State Fault Refusal :=
  .next (gdpCommand s rq 7 transaction (od index.toNat sub.toNat) segment.toNat last value)

/-- DISCOVER (R371). -/
def execDiscover (rq : Requester) (transaction : BitVec 32) (s : State) : Host.Outcome State Fault Refusal :=
  .next (gdpCommand s rq 0x0A transaction 0 0 false [])

/-- SEGMENT_TIMEOUT (R368): an open write of the transaction ends, its snapshots expire. -/
def execSegmentTimeout (rq : Requester) (transaction : BitVec 32) (s : State) : Host.Outcome State Fault Refusal :=
  let gone (x : Snapshot) : Bool := x.requester = rq && x.transaction = transaction && decide (x.last + segmentGap < now s)
  let s := { s with dict := { s.dict with snapshots := s.dict.snapshots.filter fun x => !gone x } }
  .next (match s.dict.segment with
    | some x => if x.requester = rq && x.transaction = transaction then expireSegment s else s
    | none => s)

/-- TUNNEL_TIMEOUT (R370): no reply within 10 ms. -/
def execTunnelTimeout (transaction : BitVec 32) (s : State) : Host.Outcome State Fault Refusal :=
  .next (match s.dict.tunnels.find? fun x => x.transaction = transaction && decide (x.sent + tunnelWait ≤ now s) with
    | some x => endTunnel s x 0x0B
    | none => s)

/-- The fields of a GDP header (Table 14.5) and its data. -/
structure GdpFields where
  version : Nat
  op : Nat
  hop : Nat
  tunnel : Bool
  last : Bool
  transaction : Nat
  id : Nat
  status : Nat
  segment : Nat
  target : Nat
  data : Bytes
  deriving DecidableEq, Repr

/-- Read a GDP PDU; none where it is shorter than its header and data length (R366). Over the fabric the header has no tunnel field
(R375). -/
def readGdp (b : Bytes) (fabric : Bool) : Option GdpFields :=
  let tunnel := field b 3 1 % 2 = 1
  let head := if tunnel && !fabric then 20 else 16
  let n := beNat (slice b 12 2)
  if b.length < head + n then none
  else some {
    version := field b 0 1, op := field b 1 1, hop := field b 2 1, tunnel := tunnel, last := bitAt (field b 3 1) 1
    transaction := beNat (slice b 4 4), id := beNat (slice b 8 3), status := field b 11 1, segment := beNat (slice b 14 2)
    target := if tunnel && !fabric then beNat (slice b 16 4) % 2 ^ 20 else 0, data := slice b head n }

/-- A reply to a tunnelled request has come (R370, R374): it goes back to the station, or into the window. -/
def takeTunnelReply (s : State) (source : Nat) (p : GdpFields) (pdu : Bytes) : State :=
  match s.dict.tunnels.find? fun x => x.target.toNat = source && x.transaction.toNat = p.transaction && x.op + 1 = p.op with
  | none => s
  | some x =>
    let s := { s with dict := { s.dict with tunnels := s.dict.tunnels.filter fun y => y ≠ x } }
    match x.back with
    | none => endWindow (fillWindow s (pdu.take (16 + p.data.length))) 0
    | some (port, station) =>
      sendFrame s port (gdpFrame s station.toNat x.vlan
        (gdpPdu s p.op (1 + 2 * flag p.last) p.transaction p.id p.status p.segment (some source) p.data))

/-- The segment field of a reply to an operation (Table 14.5). -/
def replySegment (p : GdpFields) : Nat := if p.op = 5 || p.op = 7 then p.segment else 0

/-- A kind-0x03 bale's PDU (R375): a reply for the gateway, or a request that the steward serves. A tunnel flag over the
fabric gets 0x09. A device without a logical address is not reached. -/
def takePdu (s : State) (source : Nat) (pdu : Bytes) : State :=
  match readGdp pdu true with
  | none => s
  | some p =>
    if 2 ^ 20 ≤ logicalAddress s then s
    else if replyOp p.op then takeTunnelReply s source p pdu
    else if !serverAlive s .fabric then s
    else
      let rq : Requester := ⟨.fabric, BitVec.ofNat 64 source⟩
      if p.tunnel || p.version ≠ 1 || !requestOp p.op then
        answer (journalRefused s rq p.op p.id p.data) rq [] p.transaction ⟨p.op + 1, false, p.id, 0x09, replySegment p, []⟩
      else serveGdp s rq [] p.op p.transaction p.id p.segment p.last p.data

/-- DICTIONARY_FRAME (R375). -/
def execDictionaryFrame (source : BitVec 20) (pdu : Bytes) (s : State) : Host.Outcome State Fault Refusal :=
  .next (takePdu s source.toNat pdu)

/-- A frame that names this station or every station is consumed (R365 to R367, R370). -/
def consumeFrame (s : State) (port : Bool) (station : Nat) (vlan : Bytes) (p : GdpFields) : State :=
  let s := odAdd s (od 0x1100 0x10) 1
  let rq : Requester := ⟨if port then .ring1 else .ring0, BitVec.ofNat 64 station⟩
  let refuse (s : State) (st : Nat) : State :=
    let pdu := gdpPdu s (p.op + 1) (flag p.tunnel) p.transaction p.id st (replySegment p) (if p.tunnel then some p.target else none) []
    sendFrame s port (gdpFrame s station vlan pdu)
  if replyOp p.op then odAdd s (od 0x1100 0x12) 1
  else if !serverAlive s rq.path then s
  else if p.version ≠ 1 || !requestOp p.op then refuse (journalRefused s rq p.op p.id p.data) 0x09
  else if !p.tunnel then serveGdp s rq vlan p.op p.transaction p.id p.segment p.last p.data
  else if deviceState s = stBoot then refuse s 0x0D
  else if 120 < p.data.length then refuse s 0x06
  else
    let pdu := [1, BitVec.ofNat 8 p.op, BitVec.ofNat 8 p.hop, BitVec.ofNat 8 (2 * flag p.last)] ++ beBytes p.transaction 4
      ++ beBytes p.id 3 ++ [0] ++ beBytes p.data.length 2 ++ beBytes p.segment 2 ++ p.data
    startTunnel s pdu p.target (some (port, BitVec.ofNat 48 station)) vlan

/-- A frame goes on by the other port with its hop limit reduced (R365). `at'` is the place of the GDP header. -/
def forwardFrame (s : State) (port : Bool) (frame : Bytes) (at' hop : Nat) : State :=
  if odGet s (od 0x1100 (if port then 3 else 4)) = 0 then odAdd s (od 0x1100 0x12) 1
  else
    sendFrame (odAdd s (od 0x1100 0x11) 1) (!port) (frame.take (at' + 2) ++ [BitVec.ofNat 8 (hop - 1)] ++ frame.drop (at' + 3))

/-- A ring port handles a frame with a good FCS (R365, R366). -/
def takeFrame (s : State) (port : Bool) (frame : Bytes) : State :=
  let tagged := beNat (slice frame 12 2) = 0x8100
  let at' := if tagged then 18 else 14
  if frame.length < at' then odAdd s (od 0x1100 0x13) 1
  else
    let dest := beNat (slice frame 0 6)
    let station := beNat (slice frame 6 6)
    let own := odGet s (od 0x1100 1)
    if beNat (slice frame (at' - 2) 2) ≠ odGet s (od 0x1100 2) || station = own then odAdd s (od 0x1100 0x12) 1
    else match readGdp (frame.drop at') false with
    | none => odAdd s (od 0x1100 0x13) 1
    | some p =>
      let vlan := if tagged then slice frame 12 4 else []
      if dest = own then consumeFrame s port station vlan p
      else
        let broadcast := dest = 2 ^ 48 - 1
        let s := if 2 ≤ p.hop then forwardFrame s port frame at' p.hop
          else if broadcast then s else odAdd s (od 0x1100 0x12) 1
        if broadcast then consumeFrame s port station vlan p else s

/-- FRAME_RECEIVE (R364 to R367): nothing is received while the ports are in reset or without link. -/
def execFrameReceive (port : Bool) (frame : Bytes) (fcsGood : Bool) (s : State) : Host.Outcome State Fault Refusal :=
  .next (
    if !ringAlive s || odGet s (od 0x1100 (if port then 4 else 3)) = 0 then s
    else if fcsGood then takeFrame s port frame else odAdd s (od 0x1100 0x13) 1)

/-- The 64 bits at an object's BAR2 offset (R372). -/
def bar2Value (s : State) (r : ObjRow) (id : Nat) : Nat :=
  if r.type.long then (odReadBytes s r id).length
  else if r.type = .i32 then wrap 64 (signed 32 (odRead s r id)) else odRead s r id

/-- Is a BAR2 offset in the transfer window (R374)? -/
def inWindow (offset : Nat) : Bool := 0x8C0000 ≤ offset && offset < 0x8D0000

/-- What a BAR2 read returns (R372, R374). -/
def bar2Read (s : State) (offset length : Nat) : Bytes :=
  let ones := List.replicate length (0xFF : Byte)
  if offset % 8 ≠ 0 || (length ≠ 4 && length ≠ 8) then ones
  else if inWindow offset then windowBytes s (offset - 0x8C0000) length
  else match objRow (offset / 8) with
    | none => ones
    | some r => leBytes (bar2Value s r (offset / 8)) length

/-- The upper bytes that a value's type asks of a BAR2 write (R372). -/
def upperForm (r : ObjRow) (v : Nat) : Bool :=
  let n := 8 * r.type.bytes
  if r.type = .i32 then v = wrap 64 (signed 32 (v % 2 ^ 32)) else v / 2 ^ n = 0

/-- A BAR2 write (R372, R373): journaled, with its status and object shown. A wrong size or alignment takes its place in
R359's order; where the offset holds no object the status is 0x06. -/
def bar2Write (s : State) (rq : Requester) (offset : Nat) (b : Bytes) : State :=
  let id := offset / 8
  if offset % 8 ≠ 0 || b.length ≠ 8 then
    if inWindow offset then odSet (odSet s (od 0x1170 4) 0x06) (od 0x1170 5) 0
    else match objRow id with
      | some _ => (pathWrite s rq id b false (some 0x06) b).1
      | none =>
        let s := addJournal s 2 rq.source.toNat id 0x06 0 0 (journalNew s id 0x06 b false)
        odSet (odSet s (od 0x1170 4) 0x06) (od 0x1170 5) 0
  else if inWindow offset then
    odSet (odSet { s with dict := { s.dict with window := Memory.write s.dict.window 0 (offset - 0x8C0000) b } }
      (od 0x1170 4) 0) (od 0x1170 5) 0
  else match objRow id with
    | none => (pathWrite s rq id b false none b).1
    | some r =>
      if r.type.long then (pathWrite s rq id b false (some 0x06) b).1
      else
        let early := if upperForm r (leNat b) then none else some 0x05
        let low := b.take r.type.bytes
        (pathWrite s rq id low false early (if early = none then low else b)).1

/-- BAR2_ACCESS (R372, R373). Until BAR2 is served, a read returns all ones and a write is dropped. -/
def execBar2Access (requester : BitVec 16) (offset : Nat) (length : Nat) (written : Option Bytes) (s : State) :
    Host.Outcome State Fault Refusal :=
  .next (
    if attachMode s = 0 then s
    else match written with
      | none => emit s (.hostData (if serverAlive s .bar2 then bar2Read s offset length else List.replicate length 0xFF))
      | some b => if serverAlive s .bar2 then bar2Write s (bar2Requester requester) offset b else s)

end Sys2Proof.Machine
end

