-- ==== Sys2Proof/Machine/Receive.lean ====
section
/-! DEFINITION. A bale arrives on a link, and what it carries acts (R232, R251 to R260, R265 to R270, R293, Tables 10.4
and 11.7). -/

namespace Sys2Proof.Machine

/-- A link-control bale acts by its operation (Table 10.4). -/
def takeControl (s : State) (l slot h arrival : Nat) : State :=
  let p := hParam h
  match hOp h with
  | 1 => takeHello s l p slot
  | 2 => takeRetrain s l (bits p 29 10)
  | 3 => declareDown s l 5
  | 4 => takeNarrow s l (bitAt p 45)
  | 5 => takeEcho s l arrival
  | 6 => takeEchoReply s l p arrival
  | 7 => takeReady s l
  | _ => s

/-- A dynamic bale for this device acts by its kind (Table 11.7). The engine of a page-copy bale stands above its 48-bit address
(log entry 27). -/
def actByKind (s : State) (l : Nat) (bale : BitVec 1280) : State :=
  let h := baleHeader bale
  let b := balePayload bale
  let word := field b 0 8
  let tag := bits word 23 0
  let data := slice b 8 (min (bits word 31 24) 136)
  let src := hSrc h
  match hKind h with
  | 1 => takeVote s l src b
  | 2 => takeAck s src (bits word 47 32) (hEcho h)
  | 3 => takePdu s src data
  | 4 => takeAccess s (.copyBale src tag (field data 0 8) (slice data 8 128))
  | 5 => takeAccess s (.pageBale (field data 6 1 % 32) src tag (field data 0 6) (slice data 8 128))
  | 6 => if field data 0 1 = 0 then s else transferFailed s tag (field data 0 1)
  | 7 => takeStartMessage s src (slice data 0 112)
  | _ => s

/-- A dynamic bale for this device acts; a fabric copy that its acknowledgement completes is done after that (R346). -/
def takeKind (s : State) (l : Nat) (bale : BitVec 1280) : State := noteCopyDone (actByKind s l bale)

/-- What a bale carries acts: a beacon in a beacon slot, else by its class. -/
def takeContents (s : State) (l slot arrival : Nat) (bale : BitVec 1280) : State :=
  if isBeacon slot then takeBeacon s l (baleHeader bale) arrival
  else if hClass (baleHeader bale) = 4 then takeControl s l slot (baleHeader bale) arrival
  else takeKind s l bale

/-- BALE_RECEIVE (R256): the link's part, then what the bale carries. -/
def execBaleReceive (link : LinkId) (seq : BitVec 12) (bale : BitVec 1280) (fec : FecReading) (arrival : BitVec 68)
    (s : State) : Host.Outcome State Fault Refusal :=
  let slot := fullSeq (now s / 4 + 8) seq.toNat
  let (s, act) := receiveBale s link.val seq.toNat bale fec
  .next (match act with
    | some b => takeContents s link.val slot arrival.toNat b
    | none => s)

end Sys2Proof.Machine
end

