-- ==== Sys2Proof/Machine/Scalar.lean ====
section
/-! DEFINITION. The commands of the S slot: each issues its one operation (R35, R36, R60, R66 to R69, Tables 3.4 and 3.5;
log entry 16). -/

namespace Sys2Proof.Machine

/-- ADD (R60). -/
def execAdd (core : CoreId) (d a b : BitVec 3) (s : State) : Host.Outcome State Fault Refusal :=
  .next (issueSlot s core.val (.s (.add d a b)))

/-- SUB (R60). -/
def execSub (core : CoreId) (d a b : BitVec 3) (s : State) : Host.Outcome State Fault Refusal :=
  .next (issueSlot s core.val (.s (.sub d a b)))

/-- AND (R60). -/
def execAnd (core : CoreId) (d a b : BitVec 3) (s : State) : Host.Outcome State Fault Refusal :=
  .next (issueSlot s core.val (.s (.and d a b)))

/-- OR (R60). -/
def execOr (core : CoreId) (d a b : BitVec 3) (s : State) : Host.Outcome State Fault Refusal :=
  .next (issueSlot s core.val (.s (.or d a b)))

/-- XOR (R60). -/
def execXor (core : CoreId) (d a b : BitVec 3) (s : State) : Host.Outcome State Fault Refusal :=
  .next (issueSlot s core.val (.s (.xor d a b)))

/-- SHL (R60). -/
def execShl (core : CoreId) (d a b : BitVec 3) (s : State) : Host.Outcome State Fault Refusal :=
  .next (issueSlot s core.val (.s (.shl d a b)))

/-- SHR (R60). -/
def execShr (core : CoreId) (d a b : BitVec 3) (s : State) : Host.Outcome State Fault Refusal :=
  .next (issueSlot s core.val (.s (.shr d a b)))

/-- SAR (R60). -/
def execSar (core : CoreId) (d a b : BitVec 3) (s : State) : Host.Outcome State Fault Refusal :=
  .next (issueSlot s core.val (.s (.sar d a b)))

/-- MUL (R60). -/
def execMul (core : CoreId) (d a b : BitVec 3) (s : State) : Host.Outcome State Fault Refusal :=
  .next (issueSlot s core.val (.s (.mul d a b)))

/-- MOV (R60). -/
def execMov (core : CoreId) (d a b : BitVec 3) (s : State) : Host.Outcome State Fault Refusal :=
  .next (issueSlot s core.val (.s (.mov d a b)))

/-- ADDI (R60). -/
def execAddi (core : CoreId) (d a : BitVec 3) (imm24 : BitVec 24) (s : State) : Host.Outcome State Fault Refusal :=
  .next (issueSlot s core.val (.s (.addi d a imm24)))

/-- MOVI (R60). -/
def execMovi (core : CoreId) (d a : BitVec 3) (imm24 : BitVec 24) (s : State) : Host.Outcome State Fault Refusal :=
  .next (issueSlot s core.val (.s (.movi d a imm24)))

/-- SHLI (R60). -/
def execShli (core : CoreId) (d a : BitVec 3) (imm24 : BitVec 24) (s : State) : Host.Outcome State Fault Refusal :=
  .next (issueSlot s core.val (.s (.shli d a imm24)))

/-- CMP (R36, R69). -/
def execCmp (core : CoreId) (k : BitVec 2) (rel : BitVec 3) (type mode : BitVec 2) (a : BitVec 3) (low : BitVec 16) (s : State) :
    Host.Outcome State Fault Refusal :=
  .next (issueSlot s core.val (.s (.cmp k rel type mode a low)))

/-- BR (R68). -/
def execBr (core : CoreId) (k : BitVec 2) (sense predict : Bool) (n t j : BitVec 10) (s : State) :
    Host.Outcome State Fault Refusal :=
  .next (issueSlot s core.val (.s (.br k sense predict n t j)))

/-- LOOP (R66). -/
def execLoop (core : CoreId) (level : BitVec 2) (trips : BitVec 24) (s : State) :
    Host.Outcome State Fault Refusal :=
  .next (issueSlot s core.val (.s (.loop level trips)))

/-- AGB (R67). -/
def execAgb (core : CoreId) (g : BitVec 4) (a : BitVec 3) (imm24 : BitVec 24) (useX : Bool) (s : State) :
    Host.Outcome State Fault Refusal :=
  .next (issueSlot s core.val (.s (.agb g a imm24 useX)))

/-- AGS (R67). -/
def execAgs (core : CoreId) (g : BitVec 4) (level : BitVec 2) (stride : BitVec 24) (s : State) :
    Host.Outcome State Fault Refusal :=
  .next (issueSlot s core.val (.s (.ags g level stride)))

/-- CSRC (R35). -/
def execCsrc (core : CoreId) (c : BitVec 2) (source : BitVec 3) (s : State) : Host.Outcome State Fault Refusal :=
  .next (issueSlot s core.val (.s (.csrc c source)))

/-- CADD (R35). -/
def execCadd (core : CoreId) (c : BitVec 2) (imm16 : BitVec 16) (s : State) : Host.Outcome State Fault Refusal :=
  .next (issueSlot s core.val (.s (.cadd c imm16)))

/-- CRD (R35). -/
def execCrd (core : CoreId) (d : BitVec 3) (c : BitVec 2) (s : State) : Host.Outcome State Fault Refusal :=
  .next (issueSlot s core.val (.s (.crd d c)))

/-- STG (R60). -/
def execStg (core : CoreId) (d sel : BitVec 3) (s : State) : Host.Outcome State Fault Refusal :=
  .next (issueSlot s core.val (.s (.stg d sel)))

end Sys2Proof.Machine
end

