-- ==== Sys2Proof/Machine/Sync.lean ====
section
/-! DEFINITION. The commands of the Y slot: each issues its one wait (R65, R154; log entry 16). -/

namespace Sys2Proof.Machine

/-- WWB (R65). -/
def execWwb (core : CoreId) (clear : Bool) (bit : BitVec 10) (s : State) : Host.Outcome State Fault Refusal :=
  .next (issueSlot s core.val (.y (.wwb clear bit)))

/-- WDP (R154). -/
def execWdp (core : CoreId) (clear outbound : Bool) (desc : BitVec 5) (s : State) :
    Host.Outcome State Fault Refusal :=
  .next (issueSlot s core.val (.y (.wdp clear outbound desc)))

end Sys2Proof.Machine
end

