-- ==== Sys2Proof/Machine/Vector.lean ====
section
/-! DEFINITION. The commands of the V slot: each issues its one operation (R61, R86 to R92, R479, R482, Tables 3.6 and
3.7; log entry 16). -/

namespace Sys2Proof.Machine

/-- VADD (R61). -/
def execVadd (core : CoreId) (f : VFields) (s : State) : Host.Outcome State Fault Refusal :=
  .next (issueSlot s core.val (.v (.lane .vadd f)))

/-- VSUB (R61). -/
def execVsub (core : CoreId) (f : VFields) (s : State) : Host.Outcome State Fault Refusal :=
  .next (issueSlot s core.val (.v (.lane .vsub f)))

/-- VMUL (R61). -/
def execVmul (core : CoreId) (f : VFields) (s : State) : Host.Outcome State Fault Refusal :=
  .next (issueSlot s core.val (.v (.lane .vmul f)))

/-- VFMA (R90). -/
def execVfma (core : CoreId) (f : VFields) (s : State) : Host.Outcome State Fault Refusal :=
  .next (issueSlot s core.val (.v (.lane .vfma f)))

/-- VMIN (R479). -/
def execVmin (core : CoreId) (f : VFields) (s : State) : Host.Outcome State Fault Refusal :=
  .next (issueSlot s core.val (.v (.lane .vmin f)))

/-- VMAX (R479). -/
def execVmax (core : CoreId) (f : VFields) (s : State) : Host.Outcome State Fault Refusal :=
  .next (issueSlot s core.val (.v (.lane .vmax f)))

/-- VCMP (R61). -/
def execVcmp (core : CoreId) (f : VFields) (s : State) : Host.Outcome State Fault Refusal :=
  .next (issueSlot s core.val (.v (.lane .vcmp f)))

/-- VSEL (R61). -/
def execVsel (core : CoreId) (f : VFields) (s : State) : Host.Outcome State Fault Refusal :=
  .next (issueSlot s core.val (.v (.lane .vsel f)))

/-- VAND (R61). -/
def execVand (core : CoreId) (f : VFields) (s : State) : Host.Outcome State Fault Refusal :=
  .next (issueSlot s core.val (.v (.lane .vand f)))

/-- VOR (R61). -/
def execVor (core : CoreId) (f : VFields) (s : State) : Host.Outcome State Fault Refusal :=
  .next (issueSlot s core.val (.v (.lane .vor f)))

/-- VXOR (R61). -/
def execVxor (core : CoreId) (f : VFields) (s : State) : Host.Outcome State Fault Refusal :=
  .next (issueSlot s core.val (.v (.lane .vxor f)))

/-- VSHL (R86). -/
def execVshl (core : CoreId) (f : VFields) (s : State) : Host.Outcome State Fault Refusal :=
  .next (issueSlot s core.val (.v (.lane .vshl f)))

/-- VSHR (R86). -/
def execVshr (core : CoreId) (f : VFields) (s : State) : Host.Outcome State Fault Refusal :=
  .next (issueSlot s core.val (.v (.lane .vshr f)))

/-- VSAR (R86). -/
def execVsar (core : CoreId) (f : VFields) (s : State) : Host.Outcome State Fault Refusal :=
  .next (issueSlot s core.val (.v (.lane .vsar f)))

/-- VEXP2 (R92). -/
def execVexp2 (core : CoreId) (f : VFields) (s : State) : Host.Outcome State Fault Refusal :=
  .next (issueSlot s core.val (.v (.lane .vexp2 f)))

/-- VLOG2 (R92). -/
def execVlog2 (core : CoreId) (f : VFields) (s : State) : Host.Outcome State Fault Refusal :=
  .next (issueSlot s core.val (.v (.lane .vlog2 f)))

/-- VRCP (R92). -/
def execVrcp (core : CoreId) (f : VFields) (s : State) : Host.Outcome State Fault Refusal :=
  .next (issueSlot s core.val (.v (.lane .vrcp f)))

/-- VRSQ (R92). -/
def execVrsq (core : CoreId) (f : VFields) (s : State) : Host.Outcome State Fault Refusal :=
  .next (issueSlot s core.val (.v (.lane .vrsq f)))

/-- VCVT (R482). -/
def execVcvt (core : CoreId) (f : VFields) (s : State) : Host.Outcome State Fault Refusal :=
  .next (issueSlot s core.val (.v (.lane .vcvt f)))

/-- VPACK (R89). -/
def execVpack (core : CoreId) (f : VFields) (s : State) : Host.Outcome State Fault Refusal :=
  .next (issueSlot s core.val (.v (.lane .vpack f)))

/-- VUNPK (R61). -/
def execVunpk (core : CoreId) (f : VFields) (s : State) : Host.Outcome State Fault Refusal :=
  .next (issueSlot s core.val (.v (.lane .vunpk f)))

/-- VRED (R38). -/
def execVred (core : CoreId) (f : VFields) (s : State) : Host.Outcome State Fault Refusal :=
  .next (issueSlot s core.val (.v (.lane .vred f)))

/-- VBCX (R61). -/
def execVbcx (core : CoreId) (f : VFields) (s : State) : Host.Outcome State Fault Refusal :=
  .next (issueSlot s core.val (.v (.lane .vbcx f)))

/-- VIMM (R61). -/
def execVimm (core : CoreId) (type : BitVec 3) (d : BitVec 5) (imm32 : BitVec 32) (s : State) :
    Host.Outcome State Fault Refusal :=
  .next (issueSlot s core.val (.v (.imm type d imm32)))

/-- VMOV (R61). -/
def execVmov (core : CoreId) (f : VFields) (s : State) : Host.Outcome State Fault Refusal :=
  .next (issueSlot s core.val (.v (.lane .vmov f)))

end Sys2Proof.Machine
end

