-- ==== Sys2Proof/Machine/Dispatch.lean ====
section
/-! DEFINITION. One arm per command: a direct call of its meaning. -/

namespace Sys2Proof.Machine

open Sys2Proof

/-- The effect of one command on everything but the queue. -/
def exec (i : Instr) (s : State) : Host.Outcome State Fault Refusal :=
  match i with
  | .bundleIssue core => Sys2Proof.Machine.execBundleIssue core s
  | .stallRelease core => Sys2Proof.Machine.execStallRelease core s
  | .add core d a b => Sys2Proof.Machine.execAdd core d a b s
  | .sub core d a b => Sys2Proof.Machine.execSub core d a b s
  | .and core d a b => Sys2Proof.Machine.execAnd core d a b s
  | .or core d a b => Sys2Proof.Machine.execOr core d a b s
  | .xor core d a b => Sys2Proof.Machine.execXor core d a b s
  | .shl core d a b => Sys2Proof.Machine.execShl core d a b s
  | .shr core d a b => Sys2Proof.Machine.execShr core d a b s
  | .sar core d a b => Sys2Proof.Machine.execSar core d a b s
  | .mul core d a b => Sys2Proof.Machine.execMul core d a b s
  | .mov core d a b => Sys2Proof.Machine.execMov core d a b s
  | .addi core d a imm24 => Sys2Proof.Machine.execAddi core d a imm24 s
  | .movi core d a imm24 => Sys2Proof.Machine.execMovi core d a imm24 s
  | .shli core d a imm24 => Sys2Proof.Machine.execShli core d a imm24 s
  | .cmp core k rel type mode a low => Sys2Proof.Machine.execCmp core k rel type mode a low s
  | .br core k sense predict n t j => Sys2Proof.Machine.execBr core k sense predict n t j s
  | .loop core level trips => Sys2Proof.Machine.execLoop core level trips s
  | .agb core g a imm24 useX => Sys2Proof.Machine.execAgb core g a imm24 useX s
  | .ags core g level stride => Sys2Proof.Machine.execAgs core g level stride s
  | .csrc core c source => Sys2Proof.Machine.execCsrc core c source s
  | .cadd core c imm16 => Sys2Proof.Machine.execCadd core c imm16 s
  | .crd core d c => Sys2Proof.Machine.execCrd core d c s
  | .stg core d sel => Sys2Proof.Machine.execStg core d sel s
  | .vadd core f => Sys2Proof.Machine.execVadd core f s
  | .vsub core f => Sys2Proof.Machine.execVsub core f s
  | .vmul core f => Sys2Proof.Machine.execVmul core f s
  | .vfma core f => Sys2Proof.Machine.execVfma core f s
  | .vmin core f => Sys2Proof.Machine.execVmin core f s
  | .vmax core f => Sys2Proof.Machine.execVmax core f s
  | .vcmp core f => Sys2Proof.Machine.execVcmp core f s
  | .vsel core f => Sys2Proof.Machine.execVsel core f s
  | .vand core f => Sys2Proof.Machine.execVand core f s
  | .vor core f => Sys2Proof.Machine.execVor core f s
  | .vxor core f => Sys2Proof.Machine.execVxor core f s
  | .vshl core f => Sys2Proof.Machine.execVshl core f s
  | .vshr core f => Sys2Proof.Machine.execVshr core f s
  | .vsar core f => Sys2Proof.Machine.execVsar core f s
  | .vexp2 core f => Sys2Proof.Machine.execVexp2 core f s
  | .vlog2 core f => Sys2Proof.Machine.execVlog2 core f s
  | .vrcp core f => Sys2Proof.Machine.execVrcp core f s
  | .vrsq core f => Sys2Proof.Machine.execVrsq core f s
  | .vcvt core f => Sys2Proof.Machine.execVcvt core f s
  | .vpack core f => Sys2Proof.Machine.execVpack core f s
  | .vunpk core f => Sys2Proof.Machine.execVunpk core f s
  | .vred core f => Sys2Proof.Machine.execVred core f s
  | .vbcx core f => Sys2Proof.Machine.execVbcx core f s
  | .vimm core type d imm32 => Sys2Proof.Machine.execVimm core type d imm32 s
  | .vmov core f => Sys2Proof.Machine.execVmov core f s
  | .mma core bank acc fmtA fmtB k agA agB => Sys2Proof.Machine.execMma core bank acc fmtA fmtB k agA agB s
  | .matrixEnterArray core => Sys2Proof.Machine.execMatrixEnterArray core s
  | .matrixComplete core => Sys2Proof.Machine.execMatrixComplete core s
  | .drain core bank mode fmt rnd count dest window => Sys2Proof.Machine.execDrain core bank mode fmt rnd count dest window s
  | .drainRowVisible core => Sys2Proof.Machine.execDrainRowVisible core s
  | .ld core v g off => Sys2Proof.Machine.execLd core v g off s
  | .ldx core x g off => Sys2Proof.Machine.execLdx core x g off s
  | .dld core desc useX x => Sys2Proof.Machine.execDld core desc useX x s
  | .st core v g off => Sys2Proof.Machine.execSt core v g off s
  | .stx core x g off => Sys2Proof.Machine.execStx core x g off s
  | .dst core desc useX x => Sys2Proof.Machine.execDst core desc useX x s
  | .wwb core clear bit => Sys2Proof.Machine.execWwb core clear bit s
  | .wdp core clear outbound desc => Sys2Proof.Machine.execWdp core clear outbound desc s
  | .waitRelease core => Sys2Proof.Machine.execWaitRelease core s
  | .branchResolve core => Sys2Proof.Machine.execBranchResolve core s
  | .joinIssue core => Sys2Proof.Machine.execJoinIssue core s
  | .postBundle core => Sys2Proof.Machine.execPostBundle core s
  | .storeVisible core => Sys2Proof.Machine.execStoreVisible core s
  | .depotLineMove core desc => Sys2Proof.Machine.execDepotLineMove core desc s
  | .depotComplete core desc => Sys2Proof.Machine.execDepotComplete core desc s
  | .reReadDone iface line check => Sys2Proof.Machine.execReReadDone iface line check s
  | .patrolScrub line check passSeconds => Sys2Proof.Machine.execPatrolScrub line check passSeconds s
  | .refresh iface => Sys2Proof.Machine.execRefresh iface s
  | .scrubDetect core address passCycles => Sys2Proof.Machine.execScrubDetect core address passCycles s
  | .outerPortGrant core bank want => Sys2Proof.Machine.execOuterPortGrant core bank want s
  | .bankWrite core bank target dataError => Sys2Proof.Machine.execBankWrite core bank target dataError s
  | .descriptorWrite core bank desc value dataError => Sys2Proof.Machine.execDescriptorWrite core bank desc value dataError s
  | .glazeRequestArrive engine source request => Sys2Proof.Machine.execGlazeRequestArrive engine source request s
  | .glazeAccept engine => Sys2Proof.Machine.execGlazeAccept engine s
  | .attention engine => Sys2Proof.Machine.execAttention engine s
  | .gather engine => Sys2Proof.Machine.execGather engine s
  | .ledgerReduce engine => Sys2Proof.Machine.execLedgerReduce engine s
  | .pageCopy engine => Sys2Proof.Machine.execPageCopy engine s
  | .compaction engine => Sys2Proof.Machine.execCompaction engine s
  | .stageStart => Sys2Proof.Machine.execStageStart s
  | .restStart => Sys2Proof.Machine.execRestStart s
  | .voteForm => Sys2Proof.Machine.execVoteForm s
  | .postVote link source payload => Sys2Proof.Machine.execPostVote link source payload s
  | .voteDeadline => Sys2Proof.Machine.execVoteDeadline s
  | .reloadDone => Sys2Proof.Machine.execReloadDone s
  | .escalationResend => Sys2Proof.Machine.execEscalationResend s
  | .meshMove row stop entry => Sys2Proof.Machine.execMeshMove row stop entry s
  | .dieToDieMove side entry => Sys2Proof.Machine.execDieToDieMove side entry s
  | .slotStart link => Sys2Proof.Machine.execSlotStart link s
  | .baleReceive link seq bale fec arrival => Sys2Proof.Machine.execBaleReceive link seq bale fec arrival s
  | .beaconReceive link beacon arrival => Sys2Proof.Machine.execBeaconReceive link beacon arrival s
  | .routeAdjust => Sys2Proof.Machine.execRouteAdjust s
  | .parentBeaconTimeout => Sys2Proof.Machine.execParentBeaconTimeout s
  | .holdoverExpiry => Sys2Proof.Machine.execHoldoverExpiry s
  | .nakResend link => Sys2Proof.Machine.execNakResend link s
  | .replayOverdue link => Sys2Proof.Machine.execReplayOverdue link s
  | .ackTimeout link => Sys2Proof.Machine.execAckTimeout link s
  | .badBaleWindowEnd link => Sys2Proof.Machine.execBadBaleWindowEnd link s
  | .lossOfSignal link => Sys2Proof.Machine.execLossOfSignal link s
  | .holdEnd link => Sys2Proof.Machine.execHoldEnd link s
  | .laneFailed link lane => Sys2Proof.Machine.execLaneFailed link lane s
  | .hello link param => Sys2Proof.Machine.execHello link param s
  | .retrain link coordinate => Sys2Proof.Machine.execRetrain link coordinate s
  | .down link cause => Sys2Proof.Machine.execDown link cause s
  | .narrow link lane => Sys2Proof.Machine.execNarrow link lane s
  | .echo link arrival => Sys2Proof.Machine.execEcho link arrival s
  | .echoReply link delay arrival => Sys2Proof.Machine.execEchoReply link delay arrival s
  | .ready link => Sys2Proof.Machine.execReady link s
  | .trainingAttempt link => Sys2Proof.Machine.execTrainingAttempt link s
  | .pmdTrainingDone link lanes => Sys2Proof.Machine.execPmdTrainingDone link lanes s
  | .trainingTimeout link => Sys2Proof.Machine.execTrainingTimeout link s
  | .acknowledgementOnly link source echo header => Sys2Proof.Machine.execAcknowledgementOnly link source echo header s
  | .ackOnlyTimer source => Sys2Proof.Machine.execAckOnlyTimer source s
  | .completion source tag status => Sys2Proof.Machine.execCompletion source tag status s
  | .kvPageCopyBale engine source tag address payload => Sys2Proof.Machine.execKvPageCopyBale engine source tag address payload s
  | .hostTraffic source tag address payload => Sys2Proof.Machine.execHostTraffic source tag address payload s
  | .oldEpochExpire => Sys2Proof.Machine.execOldEpochExpire s
  | .substitution rq addresses => Sys2Proof.Machine.execSubstitution rq addresses s
  | .prepare source msg => Sys2Proof.Machine.execPrepare source msg s
  | .ack source msg => Sys2Proof.Machine.execAck source msg s
  | .go source msg => Sys2Proof.Machine.execGo source msg s
  | .abort source msg => Sys2Proof.Machine.execAbort source msg s
  | .ackDeadline => Sys2Proof.Machine.execAckDeadline s
  | .prepareDiscard => Sys2Proof.Machine.execPrepareDiscard s
  | .startCommand rq value => Sys2Proof.Machine.execStartCommand rq value s
  | .stopRequest rq value => Sys2Proof.Machine.execStopRequest rq value s
  | .intakePoint point => Sys2Proof.Machine.execIntakePoint point s
  | .logCopyDone ws => Sys2Proof.Machine.execLogCopyDone ws s
  | .hostWrite window offset payload => Sys2Proof.Machine.execHostWrite window offset payload s
  | .hostRead window offset length => Sys2Proof.Machine.execHostRead window offset length s
  | .hostPortReset kind => Sys2Proof.Machine.execHostPortReset kind s
  | .perst level => Sys2Proof.Machine.execPerst level s
  | .interruptCoalesceEnd source => Sys2Proof.Machine.execInterruptCoalesceEnd source s
  | .fabricCopy rq value => Sys2Proof.Machine.execFabricCopy rq value s
  | .load rq => Sys2Proof.Machine.execLoad rq s
  | .unload rq => Sys2Proof.Machine.execUnload rq s
  | .frameReceive port frame fcsGood => Sys2Proof.Machine.execFrameReceive port frame fcsGood s
  | .read rq transaction index sub => Sys2Proof.Machine.execRead rq transaction index sub s
  | .write rq transaction index sub value => Sys2Proof.Machine.execWrite rq transaction index sub value s
  | .segmentRead rq transaction index sub segment => Sys2Proof.Machine.execSegmentRead rq transaction index sub segment s
  | .segmentWrite rq transaction index sub segment last value => Sys2Proof.Machine.execSegmentWrite rq transaction index sub segment last value s
  | .discover rq transaction => Sys2Proof.Machine.execDiscover rq transaction s
  | .segmentTimeout rq transaction => Sys2Proof.Machine.execSegmentTimeout rq transaction s
  | .tunnelTimeout transaction => Sys2Proof.Machine.execTunnelTimeout transaction s
  | .dictionaryFrame source pdu => Sys2Proof.Machine.execDictionaryFrame source pdu s
  | .bar2Access requester offset length written => Sys2Proof.Machine.execBar2Access requester offset length written s
  | .windowRead requester => Sys2Proof.Machine.execWindowRead requester s
  | .windowWrite requester => Sys2Proof.Machine.execWindowWrite requester s
  | .windowTunnel requester => Sys2Proof.Machine.execWindowTunnel requester s
  | .bankSwitchRequest rq core value => Sys2Proof.Machine.execBankSwitchRequest rq core value s
  | .arm rq value => Sys2Proof.Machine.execArm rq value s
  | .landRequest rq value => Sys2Proof.Machine.execLandRequest rq value s
  | .balancingEnable rq slot value => Sys2Proof.Machine.execBalancingEnable rq slot value s
  | .targetStep rq value => Sys2Proof.Machine.execTargetStep rq value s
  | .retrainRequest rq link value => Sys2Proof.Machine.execRetrainRequest rq link value s
  | .retireRequest rq link value => Sys2Proof.Machine.execRetireRequest rq link value s
  | .rotationPlanWrite rq entry value => Sys2Proof.Machine.execRotationPlanWrite rq entry value s
  | .acknowledge rq value => Sys2Proof.Machine.execAcknowledge rq value s
  | .shapeWrite rq index sub value => Sys2Proof.Machine.execShapeWrite rq index sub value s
  | .attestationNonce rq nonce => Sys2Proof.Machine.execAttestationNonce rq nonce s
  | .attestationDone => Sys2Proof.Machine.execAttestationDone s
  | .trustedPublisherWrite rq entry key => Sys2Proof.Machine.execTrustedPublisherWrite rq entry key s
  | .cargoOpen rq => Sys2Proof.Machine.execCargoOpen rq s
  | .cargoPagesCopy rq => Sys2Proof.Machine.execCargoPagesCopy rq s
  | .cargoPagesInPlace rq => Sys2Proof.Machine.execCargoPagesInPlace rq s
  | .cargoRelease rq => Sys2Proof.Machine.execCargoRelease rq s
  | .cargoCommandEnd => Sys2Proof.Machine.execCargoCommandEnd s
  | .chunk rq payload => Sys2Proof.Machine.execChunk rq payload s
  | .firmwareProgram rq => Sys2Proof.Machine.execFirmwareProgram rq s
  | .firmwareVerify rq => Sys2Proof.Machine.execFirmwareVerify rq s
  | .setTrial rq => Sys2Proof.Machine.execSetTrial rq s
  | .commit rq => Sys2Proof.Machine.execCommit rq s
  | .raiseFuseFloor rq => Sys2Proof.Machine.execRaiseFuseFloor rq s
  | .erase rq => Sys2Proof.Machine.execErase rq s
  | .partReset pwrgdFell => Sys2Proof.Machine.execPartReset pwrgdFell s
  | .resetEnd coord recovery testEn => Sys2Proof.Machine.execResetEnd coord recovery testEn s
  | .calibrationStepDone step failed => Sys2Proof.Machine.execCalibrationStepDone step failed s
  | .pmbusPoll converter reading => Sys2Proof.Machine.execPmbusPoll converter reading s
  | .pmbusAlert bus readings => Sys2Proof.Machine.execPmbusAlert bus readings s
  | .rootPllLockLoss die => Sys2Proof.Machine.execRootPllLockLoss die s
  | .dieReady die => Sys2Proof.Machine.execDieReady die s
  | .stewardWatchdog restarts => Sys2Proof.Machine.execStewardWatchdog restarts s
  | .thermalTrip row => Sys2Proof.Machine.execThermalTrip row s
  | .thermalHold => Sys2Proof.Machine.execThermalHold s
  | .thermalShutdown => Sys2Proof.Machine.execThermalShutdown s
  | .sensorSample region sensor0 sensor1 => Sys2Proof.Machine.execSensorSample region sensor0 sensor1 s
  | .powerSample milliwatts => Sys2Proof.Machine.execPowerSample milliwatts s
  | .throttleRestore => Sys2Proof.Machine.execThrottleRestore s
  | .monitorSample region monitor taps => Sys2Proof.Machine.execMonitorSample region monitor taps s
  | .dividerSwitch => Sys2Proof.Machine.execDividerSwitch s
  | .regulatorSettled region => Sys2Proof.Machine.execRegulatorSettled region s
  | .regulatorFault region => Sys2Proof.Machine.execRegulatorFault region s
  | .counterOverflow counter => Sys2Proof.Machine.execCounterOverflow counter s
  | .overflowInterruptTimer => Sys2Proof.Machine.execOverflowInterruptTimer s
  | .counterConfigurationWrite rq counter value => Sys2Proof.Machine.execCounterConfigurationWrite rq counter value s
  | .sampleAcknowledge rq value => Sys2Proof.Machine.execSampleAcknowledge rq value s
  | .tallyArm rq => Sys2Proof.Machine.execTallyArm rq s
  | .tallyDisarm rq => Sys2Proof.Machine.execTallyDisarm rq s
  | .tallyTrigger => Sys2Proof.Machine.execTallyTrigger s
  | .loadDone => Sys2Proof.Machine.execLoadDone s
  | .firmwareCommandEnd => Sys2Proof.Machine.execFirmwareCommandEnd s
  | .hostPortTrained cxl width rate => Sys2Proof.Machine.execHostPortTrained cxl width rate s
  | .ringPortLinkChange port mode => Sys2Proof.Machine.execRingPortLinkChange port mode s

end Sys2Proof.Machine
end

