-- ==== Sys2Proof/Machine/Tick.lean ====
section
/-! DEFINITION. One tick of the route clock: route time with its announced adjustments, the row clocks, and the counters of
the route-clock blocks (R217, R227, R228, R232, R426; log entry 1). -/

namespace Sys2Proof.Machine

/-- The counter after one route-clock cycle (R228): an insert holds it for one extra cycle at its value, a skip adds 2. -/
def countTick (s : State) : State :=
  let t := s.time
  let one := t.counter + 1
  match t.adjust with
  | some (v, skip) =>
    if now s < v then { s with time := { t with counter := one } }
    else if v < now s then { s with time := { t with counter := one, adjust := none, holding := false } }
    else if skip then odAdd { s with time := { t with counter := t.counter + 2, adjust := none } } (od 0x2400 0x0A) 1
    else if t.holding then { s with time := { t with counter := one, adjust := none, holding := false } }
    else odAdd { s with time := { t with holding := true } } (od 0x2400 9) 1
  | none => { s with time := { t with counter := one } }

/-- A cycle of the route clock passes. -/
def cycleTick (s : State) : State := { s with time := { s.time with cycles := s.time.cycles + 1 } }

/-- The rate acts on the accumulator each tick (R232). -/
def rateTick (s : State) : State := { s with time := { s.time with acc := s.time.acc + s.time.rate } }

/-- Divider of the root clock at a core step (Table 9.1). -/
def rowDivider (step : Nat) : Nat := ([8, 9, 10, 12, 16] : List Nat).getD step 16

/-- Is the device in a stage, its rest or its post? -/
def inRun (s : State) : Bool := s.stage.phase ≠ .none && s.stage.phase ≠ .armed

/-- A core cycle of logical core n ends: its counters count in every device state, its cycle of the stage only in one
(R427). -/
def coreTick (s : State) (n : Nat) : State :=
  let c := coreOf s n
  if c.state = .off then s else if inRun s then coreCycle s n else latchCore (observeCore s n c) n

/-- Eight cycles of the root clock pass for a row: at most one core cycle ends, and none while the clock is held
low (R242). -/
def rowTick (s : State) (row : Nat) : State :=
  let r := getRow s row
  if r.stopped || !dieRuns s (row / 12) then s
  else if 0 < r.low then setRow s row { r with low := r.low - 1 }
  else
    let d := rowDivider (rowStep s row)
    let phase := r.phase + 8
    if phase < d then setRow s row { r with phase := phase }
    else (countFrom (12 * row) 12).foldl coreTick (setRow s row { r with phase := phase - d })

/-- Links of a port die that a qualifier selects (Table 17.2). -/
def qualified (d q : Nat) : List Nat := if q = 0xFF then countFrom (24 * d) 24 else [24 * d + q]

/-- Value of a port event in the cycle that ends (Table 17.4). -/
def portEventValue (s : State) (d e q seen : Nat) : Nat :=
  match e with
  | 0x00 => 1
  | 0x25 => (qualified d q).foldl (fun m l => max m (getLink s l).dynamic.length) 0
  | 0x26 => (qualified d q).foldl (fun m l => m + (getLink s l).held.length) 0
  | _ => seen

/-- Value of an engine event in the cycle that ends (Table 17.4). The model performs a request at one instant: its lines and pages
count in the ticks that follow, and it waits for memory only while a refresh runs (log entries 21, 60). -/
def engineEventValue (s : State) (g e seen : Nat) : Nat :=
  match e with
  | 0x00 => 1
  | 0x40 => flag (decide (0 < (getEngine s g).held.length))
  | 0x41 => (getEngine s g).held.length
  | 0x42 => (getEngine s g).inboxBytes / 256
  | _ => seen

/-- The enabled counters of the route-clock blocks take one cycle (R426, R427). -/
def blockTick (s : State) : State :=
  (enabledCounters s).foldl (fun s iw =>
    let i := iw.1
    let e := cfgEvent iw.2
    if i < 0x900 then s
    else if i < 0x920 then
      let d := (i - 0x900) / 16
      if !dieRuns s (2 + d) then s
      else
        let (s, seen) := takeAccum s i 255
        countCycle s i iw.2 (portEventValue s d e (cfgQualifier iw.2) seen)
    else
      let g := (i - 0x920) / 8
      if !dieRuns s (ifaceDie g) then s
      else
        let (s, seen) := takeAccum s i (eventPace g e)
        countCycle s i iw.2 (engineEventValue s g e seen)) (forgetDisabled s 0x900 224)

/-- One route tick. No clock runs before the PLLs are locked (R454). -/
def tick (s : State) : State :=
  if odGet s (od 0x2420 1) = 0 then s
  else serveWaiting (blockTick (allRows.foldl rowTick (rateTick (countTick (cycleTick s)))))

end Sys2Proof.Machine
end

