-- ==== Sys2Proof/Safety.lean ====
section
/-! DEFINITION. What a safe run is, in the terms claims use: when an operation of a core issues, and what a command leaves
unchanged. -/

namespace Sys2Proof.Machine

/-- A command completes: it answers a next state. -/
def Completes (c : Instr) (s : State) : Prop := ∃ t, exec c s = .next t

/-- Logical core n issues the operation `o` in the state s: the core may issue (R52, R240), its region has not overrun (R70),
the operation shows no encoding fault (Table 3.14) and the shadow window has room (R72), nothing it needs is unready, held,
guarded or out of bounds (R50 to R52, R64, R113, R116, R152, R155), no halt waits for the issue (R79), and what it loads and
the registers that it uses hold no error (R82, R125). -/
structure Issuable (s : State) (n : Nat) (o : SlotOp) : Prop where
  running : canIssue s n = true
  inTime : overrunHalts s n = false
  encoding : singleFaults (coreOf s n) o = []
  window : ∀ g, (coreOf s n).region = some g → g.resolved = false → g.shadowBundles < 6
  free : (coreOf s n).checkSlot (envOf s n) (coreOf s n).inShadow o = []
  depot : depotFindings s (coreOf s n) o = []
  settled : ∀ d ∈ (coreOf s n).deferred, (coreOf s n).cycle ≤ d.cycle
  clean : loadError (coreOf s n) o = none
  sound : (coreOf s n).registerError o = false

/-- The command of an operation issues it: in the first cycle in which logical core n has issued nothing (log entry 16). -/
def Issues (s : State) (n : Nat) (o : SlotOp) : Prop := Issuable (freshCycle s n) n o

/-- Logical core n as its operation reads it. -/
def preIssue (s : State) (n : Nat) : Core := coreOf (freshCycle s n) n

/-- Between s and t nothing of the device has changed but the record of logical core n and what its observation counters have
seen in the cycle. -/
structure OnlyCore (s t : State) (n : Nat) : Prop where
  device : t = { s with cores := t.cores, observe := { s.observe with accum := t.observe.accum } }
  others : ∀ p, p ≠ physOf s n → getCore t p = getCore s p

/-- A counter after an event of a source (R35). -/
def Counter.stepped (k : Counter) (source : Nat) : Counter :=
  if k.source.toNat = source then { k with value := k.value + 1 } else k

/-- What an issue notes of itself in a core: the cycle, the bundle and its slots, for the observation counters (R35, R428,
R429). -/
def Core.noted (c d : Core) : Core :=
  { c with issued := d.issued, lastBundle := d.lastBundle, lastSlots := d.lastSlots, entered := d.entered
           retiredSlots := d.retiredSlots, region := d.region }

/-- An issue that opens, resolves and ends no branch region keeps it, but for the count of its bundles. -/
def SameRegion (a b : Option BranchRegion) : Prop :=
  match a, b with
  | none, none => True
  | some g, some h => h = { g with shadowBundles := h.shadowBundles, slots := h.slots }
  | _, _ => False

/-- Between s and t an operation of logical core n has issued and left its core as c, but for the counters that count bundles (R35)
and for what an issue notes of itself; it has changed nothing else of the device. -/
structure LeavesCore (s t : State) (n : Nat) (c : Core) : Prop where
  core : coreOf t n = (c.stepCounters 1).noted (coreOf t n)
  region : SameRegion c.region (coreOf t n).region
  device : OnlyCore (freshCycle s n) t n

/-- A write of a register leaves the check errors of every other one, and its own contents are sound (R82). -/
def Rewritten (pre post : Core) (r : Nat) : Prop := ∀ q, q ∈ post.regs.errors ↔ q ∈ pre.regs.errors ∧ q ≠ r

/-- Between s and t an operation of logical core n has issued that writes X[d], readable `lat` cycles after its issue, and
nothing else. -/
structure WritesX (s t : State) (n d lat : Nat) (v : BitVec 64) : Prop where
  value : (coreOf t n).x d = v
  ready : (coreOf t n).readyAt (resX d) = (preIssue s n).cycle + lat
  others : ∀ r, r ≠ d → (coreOf t n).x r = (preIssue s n).x r
  readyOthers : ∀ r, r ≠ resX d → (coreOf t n).readyAt r = (preIssue s n).readyAt r
  sound : Rewritten (preIssue s n) (coreOf t n) (resX d)
  core : LeavesCore s t n { preIssue s n with
    regs := { (preIssue s n).regs with
      x := (coreOf t n).regs.x, ready := (coreOf t n).regs.ready, errors := (coreOf t n).regs.errors } }

/-- Between s and t a V operation of logical core n has issued: an FP64 operation occupies the unit for 2 cycles (R37), one
that rounds stochastically takes the next index (R94), and it writes X registers, V registers or neither, as `x` and `v` say. -/
structure VectorIssued (s t : State) (n : Nat) (o : VOp) (x : Table (BitVec 64)) (v : Table (BitVec 4096)) : Prop where
  unit : (coreOf t n).regs.vFree = if o.occupies then (preIssue s n).cycle + 2 else (preIssue s n).regs.vFree
  index : (coreOf t n).regs.stoch = if o.stochastic then (preIssue s n).regs.stoch + 1 else (preIssue s n).regs.stoch
  core : LeavesCore s t n { preIssue s n with
    regs := { (preIssue s n).regs with
      x := x, v := v, ready := (coreOf t n).regs.ready, vFree := (coreOf t n).regs.vFree, stoch := (coreOf t n).regs.stoch
      errors := (coreOf t n).regs.errors } }

/-- Between s and t a V operation of logical core n has issued that writes V[d] and no other register. -/
structure WritesV (s t : State) (n : Nat) (o : VOp) (d : Nat) (v : BitVec 4096) : Prop where
  value : (coreOf t n).v d = v
  ready : (coreOf t n).readyAt (resV d) = (preIssue s n).cycle + o.latency (isB0 (freshCycle s n))
  others : ∀ r, r ≠ d → (coreOf t n).v r = (preIssue s n).v r
  readyOthers : ∀ r, r ≠ resV d → (coreOf t n).readyAt r = (preIssue s n).readyAt r
  sound : Rewritten (preIssue s n) (coreOf t n) (resV d)
  issued : VectorIssued s t n o (preIssue s n).regs.x (coreOf t n).regs.v

/-- Does the relation of a compare hold between two integers (R36): 0 eq, 1 ne, 2 lt, 3 le, 4 gt, 5 ge? -/
def Relates (rel : BitVec 3) (x y : Int) : Prop :=
  match rel.toNat with
  | 0 => x = y
  | 1 => x ≠ y
  | 2 => x < y
  | 3 => x ≤ y
  | 4 => y < x
  | _ => y ≤ x

/-- The integer that an I64 or U64 compare reads in an X register (R36). -/
def regInt (type : BitVec 2) (v : BitVec 64) : Int := if type = 1 then (v.toNat : Int) else v.toInt

/-- The integer that an I64 or U64 compare reads in its immediate (R36). -/
def immInt (type : BitVec 2) (v : BitVec 16) : Int :=
  if type = 1 then ((v.signExtend 64).toNat : Int) else v.toInt

/-- Is the pattern an FP64 NaN: exponent all ones, fraction not zero? -/
def IsNan64 (v : BitVec 64) : Prop := v.extractLsb' 52 11 = 0x7FF ∧ v.extractLsb' 0 52 ≠ 0

/-- The exact value of a finite number. -/
def Num.rat : Num → Option Rat
  | .fin neg m e => some ((if neg then -1 else 1) * (m : Rat) * (2 : Rat) ^ e)
  | _ => none

/-- The exact value that the bits of a format hold; none for an infinity or a NaN. -/
def FloatFmt.value (f : FloatFmt) (v : Nat) : Option Rat := (f.read v).rat

/-- The largest finite value of a format. -/
def FloatFmt.top (f : FloatFmt) : Rat := (f.value f.maxBits).getD 0

/-- The distance of two values. -/
def ratDist (x y : Rat) : Rat := if x ≤ y then y - x else x - y

/-- Does a value lie within the finite range of a format? -/
def FloatFmt.holds (f : FloatFmt) (x : Rat) : Prop := -f.top ≤ x ∧ x ≤ f.top

/-- v holds the value of a format that is nearest to x, of two equally near ones that with an even last bit (R90). -/
def Nearest (f : FloatFmt) (x : Rat) (v : Nat) : Prop :=
  ∃ q, f.value v = some q ∧ ∀ u p, u < 2 ^ (1 + f.exp + f.man) → f.value u = some p →
    ratDist x q < ratDist x p ∨ (ratDist x q = ratDist x p ∧ (p = q ∨ v % 2 = 0))

/-- Lane i of width w of a V register. -/
def laneAt (w i : Nat) (v : BitVec 4096) : BitVec w := v.extractLsb' (w * i) w

/-- The command of a lane operation. -/
def laneCommand (n : CoreId) (f : VFields) : VCode → Instr
  | .vadd => .vadd n f
  | .vsub => .vsub n f
  | .vmul => .vmul n f
  | .vfma => .vfma n f
  | .vmin => .vmin n f
  | .vmax => .vmax n f
  | .vcmp => .vcmp n f
  | .vsel => .vsel n f
  | .vand => .vand n f
  | .vor => .vor n f
  | .vxor => .vxor n f
  | .vshl => .vshl n f
  | .vshr => .vshr n f
  | .vsar => .vsar n f
  | .vexp2 => .vexp2 n f
  | .vlog2 => .vlog2 n f
  | .vrcp => .vrcp n f
  | .vrsq => .vrsq n f
  | .vcvt => .vcvt n f
  | .vpack => .vpack n f
  | .vunpk => .vunpk n f
  | .vred => .vred n f
  | .vbcx => .vbcx n f
  | .vmov => .vmov n f

/-- Where a store to line l of region r puts its bytes: the back copy of a green line, else the line itself (R118, R119). -/
def storeTarget (c : Core) (r : ScratchRegion) (l : Nat) : Nat := if r.mode = .green then c.backAddress r l else 64 * l

/-- A green region's back copies lie outside its own addresses (Table 5.1). -/
def ScratchRegion.Apart (r : ScratchRegion) : Prop := r.mode = .green → r.base + r.size ≤ r.back ∨ r.back + r.size ≤ r.base

/-- A raw byte of the scratchpad. -/
def Core.raw (c : Core) (p : Nat) : Byte := Table.look c.scratch 0 p

/-- Between two states of a core, bytes b have been stored from address a of region r (R118, R119): the stored bytes are in
their lines, the other bytes of a line that had no mark are zero and of a marked one as before, every byte outside those lines
is as before, and the lines carry the mark. -/
structure StoredIn (pre post : Core) (r : ScratchRegion) (a : Nat) (b : Bytes) : Prop where
  inside : ∀ i, i < b.length → post.raw (storeTarget pre r ((a + i) / 64) + (a + i) % 64) = b.getD i 0
  rest : ∀ l i, i < 64 → a / 64 ≤ l → l ≤ (a + b.length - 1) / 64 → (64 * l + i < a ∨ a + b.length ≤ 64 * l + i) →
    post.raw (storeTarget pre r l + i) = if Table.look pre.written false l then pre.raw (storeTarget pre r l + i) else 0
  outside : ∀ p, (∀ l, a / 64 ≤ l → l ≤ (a + b.length - 1) / 64 → p < storeTarget pre r l ∨ storeTarget pre r l + 64 ≤ p) →
    post.raw p = pre.raw p
  marks : ∀ l, Table.look post.written false l
    = (decide (a / 64 ≤ l ∧ l ≤ (a + b.length - 1) / 64) || Table.look pre.written false l)
  selector : post.selector = pre.selector

/-- The bundle at logical core n's address. -/
def bundleAt (s : State) (n : CoreId) : Bundle :=
  decodeBundle (Table.look (coreOf s n).bundles 0 (4096 * flag (coreOf s n).bank + (coreOf s n).pc))

/-- What BUNDLE_ISSUE, JOIN_ISSUE and POST_BUNDLE need: the bundle at the core's address lies in the bank, its check bits are
right, and nothing keeps it from issuing. -/
def BundleReady (s : State) (n : CoreId) (join : Bool) : Prop :=
  let c := coreOf s n
  let b := bundleAt s n
  canIssue s n = true ∧ overrunHalts s n = false ∧ c.pc < 4096
    ∧ c.bankErrors.contains (4096 * flag c.bank + c.pc) = false
    ∧ judge s n b.header b.ops b.badSlots join = .issue
    ∧ (if join then ∃ g, c.region = some g ∧ g.resolved = true ∧ g.pathDone = true ∧ g.n < g.counter
        else ∀ g, c.region = some g → g.pathDone = false)

/-- A write of an object arrives where something answers, and R359's checks give it the status `st`. -/
def Accepted (s : State) (rq : Requester) (id : Nat) (b : Bytes) (long : Bool) (st : Nat) : Prop :=
  serverAlive s rq.path = true ∧ writeStatus s id b long none = st

/-- The message with which the starter of the job that OD 5870 describes begins (R348). -/
def startMessage (s : State) (slot : SlotId) : StartMsg where
  axis := (usedAxes s).headD 0
  slot := slot
  status := odGet s (od 0x5870 5)
  number := BitVec.ofNat 32 (odGet s (od 0x5870 1))
  hash8 := BitVec.ofNat 64 (leNat ((getLeg s slot.val).itineraryHash.take 8))
  stage := BitVec.ofNat 64 (odGet s (od 0x5870 3))
  index := BitVec.ofNat 16 (odGet s (od 0x5870 4))
  startAt := 0
  failing := 0
  notices := []

/-- Between s and t one write request has been journaled (R376, R377, Table 14.8). -/
def Journaled (s t : State) (rq : Requester) (id : Nat) (b : Bytes) (long : Bool) (st : Nat) : Prop :=
  t.dict.journal = (journalEntry s (pathCode rq.path) rq.source.toNat id st (journalFlags (isPostTimed id) false (longObject id))
      (journalOld s id) (journalNew s id st b long) :: s.dict.journal).take 4096
  ∧ t.dict.entries = s.dict.entries + 1

/-- Between s and t nothing but the dictionary has changed: the stored objects, and the server with its journal. -/
def OnlyObjects (s t : State) : Prop := t = { s with od := t.od, odb := t.odb, dict := t.dict }

/-- A scalar object whose write stores its value and has no other effect. -/
def PlainScalar (id : Nat) : Prop :=
  isPostTimed id = false ∧ isOverflowFlags id = false ∧ isShape id = false
  ∧ id ∉ [od 0x4400 5, od 0x4800 9, od 0x4C00 6, od 0x5120 2, od 0x5200 0x14, od 0x5850 1, od 0x5860 4, od 0x5870 6,
      od 0x5880 5, od 0x1170 3]

/-- A STR or DOMAIN object whose write stores its bytes and has no other effect. -/
def PlainBytes (id : Nat) : Prop := id ∉ [od 0x5010 1, od 0x5200 0x11, od 0x3A00 7]

/-- The objects that show the most recent BAR2 write, on its path (R373). -/
def ShowsBar2 (rq : Requester) (id : Nat) : Prop := rq.path = .bar2 ∧ (id = od 0x1170 4 ∨ id = od 0x1170 5)

/-- The write that a command with a row of its own is: requester, object, bytes, and whether they are a STR or DOMAIN value. -/
def ownWriteOf : Instr → Option (Requester × Nat × Bytes × Bool)
  | .startCommand rq v => some (rq, od 0x5870 6, [v], false)
  | .stopRequest rq v => some (rq, od 0x5800 5, [v], false)
  | .fabricCopy rq v => some (rq, od 0x5880 5, [v], false)
  | .load rq => some (rq, od 0x5860 4, [1], false)
  | .unload rq => some (rq, od 0x5860 4, [2], false)
  | .windowRead r => some (bar2Requester r, od 0x1170 3, [1], false)
  | .windowWrite r => some (bar2Requester r, od 0x1170 3, [2], false)
  | .windowTunnel r => some (bar2Requester r, od 0x1170 3, [3], false)
  | .bankSwitchRequest rq n v => some (rq, od (0x3000 + n.val) 4, [v], false)
  | .arm rq v => some (rq, od 0x2020 5, [v], false)
  | .landRequest rq v => some (rq, od 0x2028 5, [v], false)
  | .balancingEnable rq k v => some (rq, od (0x2010 + k.val) 7, [v], false)
  | .targetStep rq v => some (rq, od 0x2410 1, [v], false)
  | .retrainRequest rq l v => some (rq, od (linkIndex l.val) 0x20, [v], false)
  | .retireRequest rq l v => some (rq, od (linkIndex l.val) 0x21, [v], false)
  | .rotationPlanWrite rq e v => some (rq, od 0x2000 (0x10 + e.val), leBytes v.toNat 4, false)
  | .acknowledge rq v => some (rq, od 0x4400 5, leBytes v.toNat 2, false)
  | .shapeWrite rq i x v => if isShape (od i.toNat x.toNat) then some (rq, od i.toNat x.toNat, v, longObject (od i.toNat x.toNat)) else none
  | .attestationNonce rq b => some (rq, od 0x5010 1, b, true)
  | .trustedPublisherWrite rq e b => some (rq, od 0x5100 (1 + e.val), b, true)
  | .cargoOpen rq => some (rq, od 0x5120 2, [1], false)
  | .cargoPagesCopy rq => some (rq, od 0x5120 2, [2], false)
  | .cargoPagesInPlace rq => some (rq, od 0x5120 2, [3], false)
  | .cargoRelease rq => some (rq, od 0x5120 2, [5], false)
  | .chunk rq b => some (rq, od 0x5200 0x11, b, true)
  | .firmwareProgram rq => some (rq, od 0x5200 0x14, [1], false)
  | .firmwareVerify rq => some (rq, od 0x5200 0x14, [2], false)
  | .setTrial rq => some (rq, od 0x5200 0x14, [3], false)
  | .commit rq => some (rq, od 0x5200 0x14, [4], false)
  | .raiseFuseFloor rq => some (rq, od 0x5200 0x14, [5], false)
  | .erase rq => some (rq, od 0x5200 0x14, [6], false)
  | .counterConfigurationWrite rq c v => some (rq, (counterPlace c.val).config, leBytes v.toNat 4, false)
  | .sampleAcknowledge rq v => some (rq, od 0x4800 9, leBytes v.toNat 4, false)
  | .tallyArm rq => some (rq, od 0x4C00 6, [1], false)
  | .tallyDisarm rq => some (rq, od 0x4C00 6, [2], false)
  | _ => none

/-- The command that a GDP request stands for (Table 14.6), for a requester; none for a Discover that names an object. -/
def requestCommand (rq : Requester) (p : GdpFields) : Option Instr :=
  let tr := BitVec.ofNat 32 p.transaction
  let index := BitVec.ofNat 16 (p.id / 256)
  let sub := BitVec.ofNat 8 (p.id % 256)
  match p.op with
  | 1 => some (.read rq tr index sub)
  | 3 => some (.write rq tr index sub p.data)
  | 5 => some (.segmentRead rq tr index sub (BitVec.ofNat 16 p.segment))
  | 7 => some (.segmentWrite rq tr index sub (BitVec.ofNat 16 p.segment) p.last p.data)
  | 0x0A => if p.id = 0 then some (.discover rq tr) else none
  | _ => none

/-- Does the verdict v stop the device: the vote says so, or a rule on it and the verdict before (R297)? -/
def stopsAt (s : State) (v : Vote) : Bool :=
  let foulPosts := if !v.foul then 0 else match s.vote.last with
    | some (m, w) => if m = s.stage.number && w.foul then odGet s (od 0x4401 2) + 1 else 1
    | none => 1
  v.stop || !(stopRules s s.stage.number v (odGet s (od 0x2040 1)) foulPosts).isEmpty

/-- What the post of the stage that runs in s leaves, with the combined vote v (R22, Table 1.2). A switch-over, a reload, a rotation,
a latched value or a loss that a clause does not speak of is ruled out where it could change what the clause says. -/
structure PostEnds (s : State) (v : Vote) (t : State) : Prop where
  /-- Table 11.12: the verdict, its causes and its extension are shown. -/
  shown : odGet t (od 0x2030 1) = (if v.foul then (if v.stop then 2 else 1) else 0) ∧ odGet t (od 0x2030 2) = v.causes.toNat
    ∧ (v.ext < 256 → odGet t (od 0x2030 3) = v.ext)
  /-- Table 4.4, R107: the lift of the next run. -/
  lift : odGet s (od 0x2040 1) ≤ 3 → odGet t (od 0x2040 1) = if v.foul = false then 0
    else if v.causes.getLsbD causeSpill = true ∧ v.causes.getLsbD causeNonFinite = false then min 3 (odGet s (od 0x2040 1) + 1)
    else odGet s (od 0x2040 1)
  /-- R23, R239: the next stage, or the same one again, starts after the rest and its extension. -/
  next : stopsAt s v = false → s.vote.lossVoted = false →
    t.stage.phase = .verdict ∧ t.stage.nextStart = s.stage.start + s.stage.length + 1024 * v.ext ∧ t.stage.firstRun = !v.foul
      ∧ t.vote.prevNumber = s.stage.number ∧ t.vote.prevFoul = v.foul ∧ t.vote.received = []
  number : v.foul = true ∨ rotationAfter s ((runningLeg s).quantum + 1) = none →
    t.stage.number = if v.foul then s.stage.number else s.stage.number + 1
  /-- R297, R312: a stop ends the stages. -/
  stops : stopsAt s v = true ∨ s.vote.lossVoted = true → t.stage.phase = .none
    ∧ (deviceState t = stStopped ∨ deviceState t = stFaulted) ∧ (s.vote.lossVoted = true → deviceState t = stFaulted)
  /-- R128, R129, R165: greenware pages fire or are reclaimed. -/
  pages : let written := s.ext.touched.flatMap (·.2)
    written.Nodup → t.ext.touched = [] ∧ ∀ p, Table.look t.ext.epoch false p
      = (Table.look s.ext.epoch false p != (!v.foul && written.contains p))
  /-- R119, R128, R129: so do the green lines of every core. -/
  lines : s.stage.switchOver = none → s.boot.reloadDies = [] → ∀ n, n < 288 → let c := coreOf s n
    (c.written.map (·.1)).Nodup → ∀ l, Table.look (coreOf t n).selector false l
      = (Table.look c.selector false l != (!v.foul && c.written.contains (l, true) && c.greenLine l))
  /-- R132, R202, R343: so do contexts and records; the intake record stays at a foul post. -/
  contexts : (s.ctx.table.map (·.1)).Nodup → Table.look s.ctx.balancing false (runningSlot s) = false →
    ∀ k, let x := getContext s k
      getContext t k = if x.writer = none then x else if v.foul then { x with writer := none } else ⟨!x.epoch, none, true⟩
  records : t.host.records = [] ∧ t.host.intake = (if v.foul then s.host.intake else [])
  /-- R220, R241: the device step that the floor, the throttle and the target require, where it is no faster one. -/
  step : stopsAt s v = false → s.vote.lossVoted = false → ∀ k,
    (runningLeg s).variantFrom (max s.power.target (max (odGet t (od 0x2410 4)) (odGet t (od 0x2410 5)))) = some k →
    deviceStep s ≤ k → deviceStep t = k
  /-- R314, R30: a core that waits for its switch-over retires, and the cores of its row from its column on wait for their load. -/
  switchOver : ∀ p, s.stage.switchOver = some p → p < 312 →
    (getCore t p).state = .retired ∧ odGet t (od (0x3400 + p / 13) 1) = p % 13 ∧ odGet t (od (0x3400 + p / 13) 2) = 0
      ∧ ∀ c, p % 13 ≤ c → c < 12 → 12 * (p / 13) + c ∈ t.stage.reloading
  /-- R362: what was latched is applied at a fair post and waits again at a foul one. -/
  latched : t.dict.latch = [] ∧ (v.foul = true → t.power.target = s.power.target ∧ ∀ x ∈ s.dict.latch, x.1 ∈ t.dict.pendingPost)
    ∧ (v.foul = false → ∀ x, s.dict.latch = [(od 0x2410 1, x)] → t.power.target = x)
  /-- R78: a bank switch takes effect at a fair post alone. -/
  banks : s.stage.switchOver = none → s.boot.reloadDies = [] → rotationAfter s ((runningLeg s).quantum + 1) = none →
    ∀ m : CoreId, s.dict.latch = [(od (0x3000 + m.val) 4, 1)] → ∀ n, n < 288 →
      (coreOf t n).bank = if v.foul = false ∧ n = m.val ∧ (coreOf s n).hasBank = true then !(runningLeg s).activeBank n
        else (coreOf s n).bank
  /-- R212: a rotation at a fair post: the incoming itinerary runs, and every core waits for its load. -/
  rotation : v.foul = false → s.dict.latch = [] → ∀ e, rotationAfter s ((runningLeg s).quantum + 1) = some e →
    runningSlot t = planSlot (planEntry s e) ∧ odGet t (od 0x2000 3) = e
      ∧ ∀ n, n < 288 → n ∈ t.stage.reloading ∧ (coreOf t n).hasBank = false ∧ (coreOf t n).state = .idle
  /-- R214: a weight switch that is due at a fair post is applied. -/
  weights : v.foul = false → s.dict.latch = [] → rotationAfter s ((runningLeg s).quantum + 1) = none →
    (∀ n, n < 288 → (coreOf s n).repairs = []) → ∀ a, s.ctx.arm = some a → a.slot = runningSlot s → a.slot < 8 → a.pointer < 8 → a.base < 2 ^ 48 → s.stage.index = (runningLeg s).swapIndex →
    a.from' ≤ s.stage.number.toNat → cargoVerifiedAt s a.base = true →
    odGet t (od 0x2020 6) = 2 ∧ odGet t (od (0x2010 + a.slot) (0x10 + a.pointer)) = a.base ∧ t.ctx.arm = none

/-- The fuses hold what they held, and the firmware floor has not fallen (R7, R382, R396). -/
structure FusesKept (f : Fuses) (s : State) : Prop where
  same : s.fuses = { f with floor := s.fuses.floor }
  floor : f.floor.toNat ≤ s.fuses.floor.toNat

/-- The buffers that the spec bounds hold no more than it says: the journal its latest 4,096 entries (R377), the escalation queue
16 records (R321), the sample buffer 2,048 samples (R431), the server 4 snapshots (R368). -/
structure BuffersBounded (s : State) : Prop where
  journal : s.dict.journal.length = min s.dict.entries 4096
  escalations : s.escalations.length ≤ 16
  samples : s.observe.samples.length ≤ 2048
  snapshots : s.dict.snapshots.length ≤ 4

end Sys2Proof.Machine
end

