-- ==== Sys2Proof/Certificates/Slice0/Obligations.lean ====
section
/-! DEFINITION. The statements for the provers: what the spec's rules say of the commands, of their results and of what they
leave unchanged. -/

open Sys2Proof Sys2Proof.Machine

/-- A step with a command at the front of the queue is that command's effect on the state with the queue's rest. The queue and its
order are the model's choice (log entry 2): the spec names commands and gives no queue of them. -/
def Obligations.StepRunsFront : Prop :=
  ∀ (c : Instr) (rest : List Instr) (s : State), s.pending = c :: rest →
    step s = exec c { s with pending := rest }

/-- Scalar results (Table 3.5, Table 2.10): an S operation that issues writes its result to X[d], readable one cycle later, MUL's three
cycles later, and changes no other register, no memory and nothing else of the device. That the command of an operation issues a bundle
of that operation alone is the model's choice (log entry 16). -/
def Obligations.ScalarResults : Prop :=
  ∀ (n : CoreId) (d a b : BitVec 3) (imm : BitVec 24) (s : State), let x := (preIssue s n).x
    (Issues s n (.s (.add d a b)) → ∃ t, exec (.add n d a b) s = .next t ∧ WritesX s t n d.toNat 1 (x a.toNat + x b.toNat))
    ∧ (Issues s n (.s (.sub d a b)) → ∃ t, exec (.sub n d a b) s = .next t ∧ WritesX s t n d.toNat 1 (x a.toNat - x b.toNat))
    ∧ (Issues s n (.s (.and d a b)) → ∃ t, exec (.and n d a b) s = .next t ∧ WritesX s t n d.toNat 1 (x a.toNat &&& x b.toNat))
    ∧ (Issues s n (.s (.or d a b)) → ∃ t, exec (.or n d a b) s = .next t ∧ WritesX s t n d.toNat 1 (x a.toNat ||| x b.toNat))
    ∧ (Issues s n (.s (.xor d a b)) → ∃ t, exec (.xor n d a b) s = .next t ∧ WritesX s t n d.toNat 1 (x a.toNat ^^^ x b.toNat))
    ∧ (Issues s n (.s (.shl d a b)) → ∃ t, exec (.shl n d a b) s = .next t
        ∧ WritesX s t n d.toNat 1 (x a.toNat <<< ((x b.toNat).setWidth 6).toNat))
    ∧ (Issues s n (.s (.shr d a b)) → ∃ t, exec (.shr n d a b) s = .next t
        ∧ WritesX s t n d.toNat 1 (x a.toNat >>> ((x b.toNat).setWidth 6).toNat))
    ∧ (Issues s n (.s (.sar d a b)) → ∃ t, exec (.sar n d a b) s = .next t
        ∧ WritesX s t n d.toNat 1 ((x a.toNat).sshiftRight ((x b.toNat).setWidth 6).toNat))
    ∧ (Issues s n (.s (.mul d a b)) → ∃ t, exec (.mul n d a b) s = .next t ∧ WritesX s t n d.toNat 3 (x a.toNat * x b.toNat))
    ∧ (Issues s n (.s (.mov d a b)) → ∃ t, exec (.mov n d a b) s = .next t ∧ WritesX s t n d.toNat 1 (x a.toNat))
    ∧ (Issues s n (.s (.addi d a imm)) → ∃ t, exec (.addi n d a imm) s = .next t
        ∧ WritesX s t n d.toNat 1 (x a.toNat + imm.signExtend 64))
    ∧ (Issues s n (.s (.movi d a imm)) → ∃ t, exec (.movi n d a imm) s = .next t
        ∧ WritesX s t n d.toNat 1 (imm.signExtend 64))
    ∧ (Issues s n (.s (.shli d a imm)) → ∃ t, exec (.shli n d a imm) s = .next t
        ∧ WritesX s t n d.toNat 1 (x a.toNat <<< (imm.setWidth 6).toNat))

/-- Counters and stage information (R35, Tables 3.4 and 3.5): CSRC selects a source and CADD adds modulo 2^32, each leaves every
other register, and the counters whose source is issued bundles step by one (that of a CSRC under its new source is the model's
choice, log entry 57); CRD zero-extends a counter into X[d]; STG reads the stage number, the stage parameter, the logical core
or the logical device. -/
def Obligations.CounterAndStageReads : Prop :=
  ∀ (n : CoreId) (c : BitVec 2) (src : BitVec 3) (imm : BitVec 16) (d sel : BitVec 3) (s : State),
    let pre := preIssue s n
    let sets (t : State) (k : Counter) : Prop := LeavesCore s t n (pre.setC c.toNat k)
      ∧ (coreOf t n).counter c.toNat = k.stepped 1
      ∧ ∀ r, r < 4 → r ≠ c.toNat → (coreOf t n).counter r = (pre.counter r).stepped 1
    (Issues s n (.s (.csrc c src)) → ∃ t, exec (.csrc n c src) s = .next t ∧ sets t ⟨(pre.counter c.toNat).value, src⟩)
    ∧ (Issues s n (.s (.cadd c imm)) → ∃ t, exec (.cadd n c imm) s = .next t
      ∧ sets t ⟨(pre.counter c.toNat).value + imm.signExtend 32, (pre.counter c.toNat).source⟩)
    ∧ (Issues s n (.s (.crd d c)) → ∃ t, exec (.crd n d c) s = .next t
      ∧ WritesX s t n d.toNat 1 ((pre.counter c.toNat).value.setWidth 64))
    ∧ (Issues s n (.s (.stg d sel)) → ∃ t, exec (.stg n d sel) s = .next t
      ∧ WritesX s t n d.toNat 1 (match sel.toNat with
          | 0 => s.stage.number
          | 1 => pre.parameter.setWidth 64
          | 2 => BitVec.ofNat 64 n.val
          | _ => BitVec.ofNat 64 (logicalAddress (freshCycle s n) % 2 ^ 20)))

/-- Address generators and loops (R66, R67, Table 3.4): AGB sets the base to imm24 plus X[a] where useX, modulo 2^24; AGS sets the
stride of one level; LOOP opens its level at the next bundle with index 0. Nothing else changes. That the command of an operation
issues a bundle of that operation alone is the model's choice (log entry 16). -/
def Obligations.AddressAndLoop : Prop :=
  ∀ (n : CoreId) (g : BitVec 4) (a : BitVec 3) (imm : BitVec 24) (useX : Bool) (level : BitVec 2) (trips : BitVec 24) (s : State),
    let pre := preIssue s n
    (Issues s n (.s (.agb g a imm useX)) → ∃ t, exec (.agb n g a imm useX) s = .next t
      ∧ LeavesCore s t n { pre with regs := { pre.regs with ag := (coreOf t n).regs.ag } }
      ∧ (coreOf t n).ag g.toNat
          = { pre.ag g.toNat with base := imm + (if useX then (pre.x a.toNat).setWidth 24 else 0) }
      ∧ ∀ r, r ≠ g.toNat → (coreOf t n).ag r = pre.ag r)
    ∧ (Issues s n (.s (.ags g level imm)) → ∃ t, exec (.ags n g level imm) s = .next t
      ∧ LeavesCore s t n { pre with regs := { pre.regs with ag := (coreOf t n).regs.ag } }
      ∧ (coreOf t n).ag g.toNat = { pre.ag g.toNat with
          stride0 := if level = 0 then imm else (pre.ag g.toNat).stride0
          stride1 := if level = 1 then imm else (pre.ag g.toNat).stride1
          stride2 := if level = 2 then imm else (pre.ag g.toNat).stride2
          stride3 := if level = 3 then imm else (pre.ag g.toNat).stride3 }
      ∧ ∀ r, r ≠ g.toNat → (coreOf t n).ag r = pre.ag r)
    ∧ (Issues s n (.s (.loop level trips)) → ∃ t, exec (.loop n level trips) s = .next t
      ∧ LeavesCore s t n { pre with loops := (coreOf t n).loops }
      ∧ (coreOf t n).loop level.toNat = ⟨trips, 0, pre.pc + 1⟩
      ∧ ∀ r, r ≠ level.toNat → (coreOf t n).loop r = pre.loop r)

/-- CMP (R36, R69): an issuing CMP writes K[k] from its relation, readable one cycle after it has read its operands, and leaves every
other register. I64 and U64 compare integers in all three modes; an F64 compare with a NaN yields 1 for ne alone. That the command of
an operation issues a bundle of that operation alone is the model's choice (log entry 16). -/
def Obligations.CompareResult : Prop :=
  ∀ (n : CoreId) (k : BitVec 2) (rel : BitVec 3) (type mode : BitVec 2) (a : BitVec 3) (low : BitVec 16) (s : State),
    let pre := preIssue s n
    let b := (low.extractLsb' 13 3).toNat
    let read := max (max pre.cycle (pre.readyAt (resX a.toNat))) (if mode = 0 then pre.readyAt (resX b) else 0)
    Issues s n (.s (.cmp k rel type mode a low)) →
    ∃ t, exec (.cmp n k rel type mode a low) s = .next t
      ∧ LeavesCore s t n { pre with regs := { pre.regs with
          k := (coreOf t n).regs.k, ready := (coreOf t n).regs.ready, cmpWait := (coreOf t n).regs.cmpWait
          errors := (coreOf t n).regs.errors } }
      ∧ Rewritten pre (coreOf t n) (resK k.toNat)
      ∧ (∀ r, r ≠ k.toNat → (coreOf t n).k r = pre.k r)
      ∧ (coreOf t n).readyAt (resK k.toNat) = read + 1
      ∧ (∀ r, r ≠ resK k.toNat → (coreOf t n).readyAt r = pre.readyAt r)
      ∧ (coreOf t n).regs.cmpWait = (if pre.cycle < read then read else pre.regs.cmpWait)
      ∧ (type.toNat < 2 → ((coreOf t n).k k.toNat = true ↔ (match mode.toNat with
          | 0 => Relates rel (regInt type (pre.x a.toNat)) (regInt type (pre.x b))
          | 1 => Relates rel (regInt type (pre.x a.toNat)) (immInt type low)
          | _ => Relates rel (immInt type low) (regInt type (pre.x a.toNat)))))
      ∧ (type = 3 → (IsNan64 (pre.x a.toNat) ∨ (mode = 0 ∧ IsNan64 (pre.x b))) →
          (coreOf t n).k k.toNat = decide (rel = 1))

/-- BR (R35, R68, R69, Table 3.4): an issuing BR counts as a bundle and opens a region with its length, paths, condition and
prediction, its counter at 0 and copies of the registers; the resolution cycle is the later of its own and that in which K becomes
readable; it follows the condition where that is already known and the prediction otherwise. That the command of an operation issues a
bundle of that operation alone is the model's choice (log entry 16). -/
def Obligations.BranchOpens : Prop :=
  ∀ (n : CoreId) (k : BitVec 2) (sense predict : Bool) (m t j : BitVec 10) (s : State),
    let pre := preIssue s n
    let r := max pre.cycle (pre.readyAt (resK k.toNat))
    Issues s n (.s (.br k sense predict m t j)) →
    ∃ u, exec (.br n k sense predict m t j) s = .next u ∧ OnlyCore (freshCycle s n) u n
      ∧ (coreOf u n).regs = (pre.stepCounters 1).regs ∧ (coreOf u n).scratch = pre.scratch ∧ (coreOf u n).acc = pre.acc
      ∧ (coreOf u n).loops = pre.loops ∧ (coreOf u n).waybill = pre.waybill ∧ (coreOf u n).done = pre.done
      ∧ (coreOf u n).depots = pre.depots ∧ (coreOf u n).mops = pre.mops ∧ (coreOf u n).drains = pre.drains
      ∧ ∃ g, (coreOf u n).region = some g
        ∧ g.branch = pre.pc ∧ g.n = m.toNat ∧ g.t = t.toNat ∧ g.j = j.toNat ∧ g.counter = 0 ∧ g.saved = (coreOf u n).regs
        ∧ g.resolution = r ∧ g.resolved = decide (r ≤ pre.cycle + 1)
        ∧ g.taken = (if r ≤ pre.cycle + 1 then decide (pre.k k.toNat = sense) else predict)
        ∧ (coreOf u n).pc = (if g.taken then pre.pc + t.toNat
            else if t.toNat ≤ 1 then pre.pc + j.toNat else pre.pc + 1)

/-- Vector results (Table 3.7, R37, R90 to R92, R94, R479, R482, R485): every lane operation that issues, but for VRED and a VPACK into
an MX format, writes V[d] lane by lane from the registers as they stood, readable after its row of Table 2.10, and changes no other
register, no memory and nothing else of the device. Without stochastic rounding a sum, difference, product or FMA of finite lanes is
the exact value rounded once to nearest even, where that is finite; a NaN gives the canonical NaN; VMIN and VMAX take −0 as less than
+0; the special functions give their special cases and, at a power of two, the exact value, and VRCP the nearest one; VCVT converts
lane by lane, saturates an integer, and writes zero in the lanes that the source does not have. That the command of an operation issues
a bundle of that operation alone is the model's choice (log entry 16). -/
def Obligations.VectorResults : Prop :=
  (∀ (n : CoreId) (o : VCode) (f : VFields) (s : State), o ≠ .vred → (o = .vpack → ¬ (5 ≤ f.fmt.toNat ∧ f.fmt.toNat ≤ 9)) →
    Issues s n (.v (.lane o f)) →
    ∃ t, exec (laneCommand n f o) s = .next t
      ∧ WritesV s t n (.lane o f) f.d.toNat (laneResult (envOf (freshCycle s n) n) (preIssue s n) o f))
  ∧ (∀ (f : VFields) (b0 : Bool), let lat (o : VCode) : Nat := (VOp.lane o f).latency b0
    (∀ o ∈ [VCode.vadd, .vsub, .vmul], lat o = (match f.type.toNat with
        | 0 => if b0 then 5 else 6
        | 1 => 4
        | 2 => if b0 then 3 else 4
        | 3 => if b0 then 3 else 4
        | _ => 2))
    ∧ (∀ o ∈ [VCode.vfma, .vmin, .vmax, .vcmp], f.type.toNat < 4 → lat o = lat .vadd)
    ∧ (∀ o ∈ [VCode.vsel, .vand, .vor, .vxor, .vshl, .vshr, .vsar, .vmov, .vbcx], lat o = 2)
    ∧ (∀ o ∈ [VCode.vexp2, .vlog2, .vrcp, .vrsq], lat o = if b0 then 10 else 12)
    ∧ (∀ o ∈ [VCode.vcvt, .vpack, .vunpk], lat o = 3)
    ∧ lat .vred = if f.type = 0 then (if b0 then 9 else 11) else (if b0 then 7 else 9))
  ∧ (∀ (e : Env) (c : Core) (f : VFields) (fl : FloatFmt) (w canonical i : Nat), f.rnd = 0 →
    (f.type = 0 ∧ fl = .fp64 ∧ w = 64 ∧ canonical = 0x7FF8000000000000 ∨ f.type = 1 ∧ fl = .fp32 ∧ w = 32 ∧ canonical = 0x7FC00000
      ∨ f.type = 2 ∧ fl = .bf16 ∧ w = 16 ∧ canonical = 0x7FC0 ∨ f.type = 3 ∧ fl = .fp16 ∧ w = 16 ∧ canonical = 0x7E00) →
    w * i < 4096 →
    let lane (r : BitVec 5) : Nat := (laneAt w i (c.v r.toNat)).toNat
    let r (o : VCode) : Nat := (laneAt w i (laneResult e c o f)).toNat
    (∀ x y, fl.value (lane f.a) = some x → fl.value (lane f.b) = some y →
      (fl.holds (x + y) → Nearest fl (x + y) (r .vadd)) ∧ (fl.holds (x - y) → Nearest fl (x - y) (r .vsub))
      ∧ (fl.holds (x * y) → Nearest fl (x * y) (r .vmul))
      ∧ (∀ z, fl.value (lane f.c) = some z → fl.holds (x * y + z) → Nearest fl (x * y + z) (r .vfma))
      ∧ (x < y → r .vmin = lane f.a ∧ r .vmax = lane f.b) ∧ (y < x → r .vmin = lane f.b ∧ r .vmax = lane f.a)
      ∧ (lane f.a = 2 ^ (w - 1) → lane f.b = 0 → r .vmin = 2 ^ (w - 1) ∧ r .vmax = 0)
      ∧ (lane f.a = 0 → lane f.b = 2 ^ (w - 1) → r .vmin = 2 ^ (w - 1) ∧ r .vmax = 0))
    ∧ (fl.read (lane f.a) = .nan ∨ fl.read (lane f.b) = .nan →
        ∀ o ∈ [VCode.vadd, .vsub, .vmul, .vfma, .vmin, .vmax], r o = canonical))
  ∧ (∀ (e : Env) (c : Core) (f : VFields) (i : Nat), f.type = 1 → i < 128 →
    let a := (laneAt 32 i (c.v f.a.toNat)).toNat
    let r (o : VCode) : Nat := (laneAt 32 i (laneResult e c o f)).toNat
    let rows (exp2 log2 rcp rsq : Nat) : Prop := r .vexp2 = exp2 ∧ r .vlog2 = log2 ∧ r .vrcp = rcp ∧ r .vrsq = rsq
    (a = 0xFF800000 → rows 0 0x7FC00000 0x80000000 0x7FC00000) ∧ (a = 0x7F800000 → rows 0x7F800000 0x7F800000 0 0)
    ∧ (a = 0 → rows 0x3F800000 0xFF800000 0x7F800000 0x7F800000)
    ∧ (a = 0x80000000 → rows 0x3F800000 0xFF800000 0xFF800000 0xFF800000)
    ∧ (FloatFmt.fp32.read a = .nan → rows 0x7FC00000 0x7FC00000 0x7FC00000 0x7FC00000)
    ∧ (∀ x, FloatFmt.fp32.value a = some x →
      (x < 0 → r .vlog2 = 0x7FC00000 ∧ r .vrsq = 0x7FC00000)
      ∧ (∀ k : Int, x = k → -126 ≤ k → k ≤ 127 → r .vexp2 = (k + 127).toNat * 2 ^ 23)
      ∧ (∀ k : Int, x = (2 : Rat) ^ k → FloatFmt.fp32.value (r .vlog2) = some (k : Rat))
      ∧ (∀ k : Int, x = (2 : Rat) ^ (2 * k) → FloatFmt.fp32.value (r .vrsq) = some ((2 : Rat) ^ (-k)))
      ∧ (x ≠ 0 → FloatFmt.fp32.holds (1 / x) → Nearest .fp32 (1 / x) (r .vrcp))))
  ∧ (∀ (e : Env) (c : Core) (f : VFields) (j : Nat), f.type.toNat < 7 → f.rnd = 0 →
    f.fmt.toNat ∈ [0, 1, 2, 3, 4, 0xA, 0xB, 0xC, 0xD, 0xE] →
    let from' := typeCode f.type.toNat
    let w := codeBits from'
    let d := codeBits f.fmt.toNat
    let a := laneAt w j (c.v f.a.toNat)
    let r := laneAt d j (laneResult e c .vcvt f)
    d * j < 4096 → (4096 ≤ w * j → r = 0)
    ∧ (w * j < 4096 → ∀ x : Sys2Proof.Machine.Num, x = (match codeFloat from' with
        | some g => g.read a.toNat
        | none => .fin (decide (a.toInt < 0)) a.toInt.natAbs 0) →
      (∀ g q, codeFloat f.fmt.toNat = some g → x.rat = some q → g.holds q → Nearest g q r.toNat)
      ∧ (∀ g, codeFloat f.fmt.toNat = some g → x = .nan → r.toNat = g.nanBits)
      ∧ (codeFloat f.fmt.toNat = none → x = .nan → r = 0)
      ∧ (∀ (q : Rat) (k : Int), codeFloat f.fmt.toNat = none → x.rat = some q →
          2 * ratDist q k < 1 ∨ (2 * ratDist q k = 1 ∧ k % 2 = 0) →
          r = BitVec.ofInt d (max (-(2 ^ (d - 1))) (min (2 ^ (d - 1) - 1) k)))))

/-- Integer lanes (R86, Table 3.7): for INT32, INT16 and INT8, each lane of V[d] is the sum, difference or product modulo the lane's
width, the shift by the whole lane of b (zero or the sign from the width on), or the selected lane. That the command of an operation
issues a bundle of that operation alone is the model's choice (log entry 16). -/
def Obligations.IntegerLanes : Prop :=
  ∀ (e : Env) (c : Core) (f : VFields) (w i : Nat),
    (f.type = 4 ∧ w = 32 ∨ f.type = 5 ∧ w = 16 ∨ f.type = 6 ∧ w = 8) → w * i < 4096 →
    let a := laneAt w i (c.v f.a.toNat)
    let b := laneAt w i (c.v f.b.toNat)
    let m := laneAt w i (c.v f.c.toNat)
    laneAt w i (laneResult e c .vadd f) = a + b
    ∧ laneAt w i (laneResult e c .vsub f) = a - b
    ∧ laneAt w i (laneResult e c .vmul f) = a * b
    ∧ laneAt w i (laneResult e c .vshl f) = a <<< b.toNat
    ∧ laneAt w i (laneResult e c .vshr f) = a >>> b.toNat
    ∧ laneAt w i (laneResult e c .vsar f) = a.sshiftRight b.toNat
    ∧ laneAt w i (laneResult e c .vsel f) = (if m ≠ 0 then a else b)
    ∧ laneAt w i (laneResult e c .vand f) = a &&& b
    ∧ laneAt w i (laneResult e c .vor f) = a ||| b
    ∧ laneAt w i (laneResult e c .vxor f) = a ^^^ b
    ∧ laneAt w i (laneResult e c .vmov f) = a
    ∧ laneAt w i (laneResult e c .vbcx f) = (c.x f.a.toNat).setWidth w

/-- The other vector operations (R38, R89, Table 3.7): VIMM broadcasts the low bits of imm32; VRED writes an X register by the
pairwise tree; a VPACK into an MX format writes the elements to V[d] and the block scales to the low bytes of V[b]. What V[b]
holds above the scales, and V[d] where d = b, is free (log entry 15), and nothing is said of it. -/
def Obligations.VectorOthers : Prop :=
  ∀ (n : CoreId) (f : VFields) (type : BitVec 3) (d : BitVec 5) (imm : BitVec 32) (s : State),
    let pre := preIssue s n
    let e := envOf (freshCycle s n) n
    (Issues s n (.v (.imm type d imm)) → ∃ t, exec (.vimm n type d imm) s = .next t
      ∧ WritesV s t n (.imm type d imm) d.toNat (coreOf t n |>.v d.toNat)
      ∧ ∀ i, codeBits (typeCode type.toNat) * i < 4096 →
          laneAt (codeBits (typeCode type.toNat)) i ((coreOf t n).v d.toNat) = imm.setWidth _)
    ∧ (Issues s n (.v (.lane .vred f)) → ∃ t, exec (.vred n f) s = .next t
      ∧ VectorIssued s t n (.lane .vred f) (coreOf t n).regs.x pre.regs.v
      ∧ (coreOf t n).x f.d.toNat = reduceRegister (typeCode f.type.toNat) f.b.toNat (pre.v f.a.toNat)
      ∧ (∀ r, r ≠ f.d.toNat → (coreOf t n).x r = pre.x r)
      ∧ (coreOf t n).readyAt (resX f.d.toNat) = pre.cycle + (VOp.lane .vred f).latency (isB0 (freshCycle s n)))
    ∧ (Issues s n (.v (.lane .vpack f)) → 5 ≤ f.fmt.toNat ∧ f.fmt.toNat ≤ 9 → f.d ≠ f.b →
        let p := packRegister e (f.rnd.toNat = 1) pre.regs.stoch (typeCode f.type.toNat) f.fmt.toNat (pre.v f.a.toNat)
        ∃ t, exec (.vpack n f) s = .next t
          ∧ VectorIssued s t n (.lane .vpack f) pre.regs.x (coreOf t n).regs.v
          ∧ (coreOf t n).v f.d.toNat = p.1
          ∧ (∀ i, i < p.2.length → laneAt 8 i ((coreOf t n).v f.b.toNat) = BitVec.ofNat 8 (p.2.getD i 0))
          ∧ (∀ r, r ≠ f.d.toNat → r ≠ f.b.toNat → (coreOf t n).v r = pre.v r)
          ∧ (coreOf t n).readyAt (resV f.d.toNat) = pre.cycle + 3 ∧ (coreOf t n).readyAt (resV f.b.toNat) = pre.cycle + 3)

/-- Loads (R50, R64, R72): an issuing LD or LDX puts the 512 or 8 bytes at AG(g) plus its signed offset in units, as the core reads
them through its store hold, into its register, readable 5 cycles later on A1 and 4 on B0, and changes nothing else. That the command
of an operation issues a bundle of that operation alone is the model's choice (log entry 16). -/
def Obligations.LoadResults : Prop :=
  ∀ (n : CoreId) (v : BitVec 5) (x : BitVec 3) (g : BitVec 4) (off : BitVec 16) (s : State),
    let pre := preIssue s n
    let lat := if isB0 s then 4 else 5
    (Issues s n (.l (.ld v g off)) → ∃ t, exec (.ld n v g off) s = .next t
      ∧ LeavesCore s t n { pre with regs := { pre.regs with
          v := (coreOf t n).regs.v, ready := (coreOf t n).regs.ready, errors := (coreOf t n).regs.errors } }
      ∧ Rewritten pre (coreOf t n) (resV v.toNat)
      ∧ (coreOf t n).v v.toNat
          = BitVec.ofNat 4096 (leNat (pre.readThroughHold ((pre.agAddress g.toNat : Int) + off.toInt * 64).toNat 512))
      ∧ (∀ r, r ≠ v.toNat → (coreOf t n).v r = pre.v r)
      ∧ (coreOf t n).readyAt (resV v.toNat) = pre.cycle + lat
      ∧ ∀ r, r ≠ resV v.toNat → (coreOf t n).readyAt r = pre.readyAt r)
    ∧ (Issues s n (.l (.ldx x g off)) → ∃ t, exec (.ldx n x g off) s = .next t
      ∧ WritesX s t n x.toNat lat
          (BitVec.ofNat 64 (leNat (pre.readThroughHold ((pre.agAddress g.toNat : Int) + off.toInt * 8).toNat 8))))

/-- Stores (R50, R64, R72, R112, R118, R119, R122, R440): outside a shadow window an issuing ST or STX stores its register's bytes in
its lines and leaves every other byte of scratchpad, every register and, in a plain region, the rest of the device; in a green region
its term enters the fingerprint, and a store inside a line is mirrored to its home where its port is free, else waits for it; in a
window it enters the store hold and leaves scratchpad. Either way the store is visible 3 cycles later. That the command of an operation
issues a bundle of that operation alone is the model's choice (log entry 16). -/
def Obligations.StoreResults : Prop :=
  ∀ (n : CoreId) (v : BitVec 5) (x : BitVec 3) (g : BitVec 4) (off : BitVec 16) (s : State),
    let pre := preIssue s n
    let stored (op : TOp) (c : Instr) (a : Nat) (b : Bytes) : Prop :=
      Issues s n (.t op) → ∃ t, exec c s = .next t
        ∧ (coreOf t n).regs = (pre.stepCounters 1).regs
        ∧ (pre.inShadow = true →
            LeavesCore s t n { pre with stores := pre.stores ++ [⟨a, b.length, pre.cycle + 3⟩], region := (coreOf t n).region }
            ∧ ∀ h, pre.region = some h → ∃ k, (coreOf t n).region = some k ∧ k.hold = h.hold ++ [.store a b pre.pc]
                ∧ k = { h with hold := k.hold, shadowBundles := k.shadowBundles, slots := k.slots })
        ∧ (pre.inShadow = false → ∀ r, pre.regionAt a b.length = some r → r.Apart →
            StoredIn pre (coreOf t n) r a b
            ∧ (r.mode = .green → let bank := scratchBank (pre.writtenCopy a)
              let home := r.home + (a - r.base)
              let before := freshCycle s n
              let free := pre.mayTransfer bank portMirror = true ∧ ∀ m ∈ pre.mirrors, m.1 ≠ bank
              t.observe.fingerprint = before.observe.fingerprint + crc64 (leBytes n.val 2 ++ leBytes a 4 ++ b)
              ∧ (a % 64 + b.length ≤ 64 → (¬ free → t.ext = before.ext ∧ (coreOf t n).mirrors = pre.mirrors ++ [(bank, home, b)])
                ∧ (free → (coreOf t n).mirrors = pre.mirrors ∧ (greenAt before home = none → t.ext = (extWrite before home b).ext))))
            ∧ (r.mode = .plain → LeavesCore s t n { pre with
                scratch := (coreOf t n).scratch, scratchErrors := (coreOf t n).scratchErrors
                written := (coreOf t n).written, stores := pre.stores ++ [⟨a, b.length, pre.cycle + 3⟩] }))
    stored (.st v g off) (.st n v g off) ((pre.agAddress g.toNat : Int) + off.toInt * 64).toNat (leBytes (pre.v v.toNat).toNat 512)
    ∧ stored (.stx x g off) (.stx n x g off) ((pre.agAddress g.toNat : Int) + off.toInt * 8).toNat (leBytes (pre.x x.toNat).toNat 8)

/-- Waits that release (R35, R65, R154): outside a shadow window a WWB or WDP whose bit is readable issues and counts as a bundle; with
clear it consumes its bit, and the counters of that source step by one; without clear it changes nothing else. In a window the bit
stays until the branch resolves (R72). That the command of an operation issues a bundle of that operation alone is the model's choice
(log entry 16). -/
def Obligations.WaitResults : Prop :=
  ∀ (n : CoreId) (clear outbound : Bool) (bit : BitVec 10) (desc : BitVec 5) (s : State),
    let pre := preIssue s n
    let steps (t : State) (source : Nat) : Prop := ∀ i, i < 4 → (coreOf t n).counter i
      = (if clear then (pre.counter i).stepped source else pre.counter i).stepped 1
    let counted (source : Nat) : Core := if clear then pre.stepCounters source else pre
    (Issues s n (.y (.wwb clear bit)) → ∃ t, exec (.wwb n clear bit) s = .next t
      ∧ steps t 2
      ∧ (pre.inShadow = false →
          LeavesCore s t n { counted 2 with waybill := (coreOf t n).waybill }
          ∧ ∀ i, i < 1024 → (coreOf t n).waybill.getLsbD i = (pre.waybill.getLsbD i && !(clear && i == bit.toNat)))
      ∧ (pre.inShadow = true → (coreOf t n).waybill = pre.waybill
          ∧ ∀ h, pre.region = some h → ∃ k, (coreOf t n).region = some k
            ∧ k.clears = h.clears ++ (if clear then [(false, bit.toNat)] else [])))
    ∧ (Issues s n (.y (.wdp clear outbound desc)) → ∃ t, exec (.wdp n clear outbound desc) s = .next t
      ∧ steps t 3
      ∧ (pre.inShadow = false →
          LeavesCore s t n { counted 3 with done := (coreOf t n).done, issuedInStage := (coreOf t n).issuedInStage }
          ∧ ∀ i, i < 56 →
            (coreOf t n).done.getLsbD i = (pre.done.getLsbD i && !(clear && i == wdpIndex outbound desc))
            ∧ (coreOf t n).issuedInStage.getLsbD i
                = (pre.issuedInStage.getLsbD i && !(clear && i == wdpIndex outbound desc)))
      ∧ (pre.inShadow = true → (coreOf t n).done = pre.done
          ∧ ∀ h, pre.region = some h → ∃ k, (coreOf t n).region = some k
            ∧ k.clears = h.clears ++ (if clear then [(true, wdpIndex outbound desc)] else [])))

/-- WDP (R154): outside a shadow window, with nothing else in its way, it halts its core with 0x49 where the descriptor has not been
issued since its bit was last cleared; else it waits until two cycles after the completion bit is set; then it issues and, with clear,
clears the bit. A descriptor that is not in flight may issue again. That the command of an operation issues a bundle of that operation
alone is the model's choice (log entry 16). -/
def Obligations.DepotWait : Prop :=
  ∀ (n : CoreId) (clear outbound : Bool) (desc : BitVec 5) (s : State),
    let pre := preIssue s n
    let d := wdpIndex outbound desc
    (outbound = true → desc.toNat < 24) →
    canIssue (freshCycle s n) n = true → overrunHalts (freshCycle s n) n = false → pre.inShadow = false →
    (∀ h ∈ pre.deferred, pre.cycle ≤ h.cycle) →
    (∃ t, exec (.wdp n clear outbound desc) s = .next t
      ∧ (pre.issuedInStage.getLsbD d = false → pre.haltTaken = false →
          (coreOf t n).state = .halted
          ∧ bits (odGet t (od (0x3000 + n.val) 0x10)) 63 56 = 0x49
          ∧ bits (odGet t (od (0x3000 + n.val) 0x10)) 55 53 = 6
          ∧ t.vote.causes.getLsbD causeHalt = true)
      ∧ (pre.issuedInStage.getLsbD d = true →
          (pre.done.getLsbD d = false ∨ pre.cycle < Table.look pre.doneAt 0 d + 2) →
          coreOf t n = { pre with stall := some ⟨2, d, some (.y (.wdp clear outbound desc))⟩ })
      ∧ (pre.issuedInStage.getLsbD d = true → pre.done.getLsbD d = true → Table.look pre.doneAt 0 d + 2 ≤ pre.cycle →
          (coreOf t n).stall = none ∧ (coreOf t n).done.getLsbD d = !clear))
    ∧ (pre.inFlight.getLsbD d = false → ∀ offset, depotFault (freshCycle s n) pre d offset ≠ some 0x47)

/-- Depot starts (R151 to R153, R72): an issuing DLD, or an issuing DST outside a shadow window, takes its descriptor from the active
bank with the offset of X where useX; its completion bit clears, it is in flight and counts as issued; registers, scratchpad and every
other descriptor's bits stay. A DST in a window enters the store hold. That the command of an operation issues a bundle of that
operation alone is the model's choice (log entry 16). -/
def Obligations.DepotStarts : Prop :=
  ∀ (n : CoreId) (desc : BitVec 5) (useX : Bool) (x : BitVec 3) (s : State),
    let pre := preIssue s n
    let offset := if useX then pre.x x.toNat else 0
    let starts (d : Nat) (t : State) : Prop :=
      (coreOf t n).regs = (pre.stepCounters 1).regs ∧ (coreOf t n).scratch = pre.scratch ∧ (coreOf t n).waybill = pre.waybill
      ∧ (coreOf t n).depots = pre.depots ++ [⟨d, pre.descriptor pre.bank d, offset, 0, false, pre.inShadow, [], false⟩]
      ∧ ∀ i, i < 56 →
        (coreOf t n).done.getLsbD i = (pre.done.getLsbD i && !(i == d))
        ∧ (coreOf t n).inFlight.getLsbD i = (pre.inFlight.getLsbD i || i == d)
        ∧ (coreOf t n).issuedInStage.getLsbD i = (pre.issuedInStage.getLsbD i || i == d)
    (Issues s n (.l (.dld desc useX x)) → ∃ t, exec (.dld n desc useX x) s = .next t ∧ starts desc.toNat t)
    ∧ (Issues s n (.t (.dst desc useX x)) → ∃ t, exec (.dst n desc useX x) s = .next t
      ∧ (pre.inShadow = false → starts (32 + desc.toNat) t)
      ∧ (pre.inShadow = true → (coreOf t n).regs = (pre.stepCounters 1).regs ∧ (coreOf t n).depots = pre.depots
          ∧ ∀ h, pre.region = some h → ∃ k, (coreOf t n).region = some k
            ∧ k.hold = h.hold ++ [.dst (32 + desc.toNat) useX offset]))

/-- Matrix issue (R42 to R44, R87, R96, R97, R114, R115): an issuing MMA joins the command queue with its addresses, and where the
array is free it enters at once and writes its bank alone: an integer word is the old one, or 0, plus the products of its row of A and
its column of B; a floating-point word comes from it by one rounding to nearest even for each k-step, or for each 32 of them where both
operands have 8 bits or fewer, of the exact sum with that group's products; an issuing DRAIN starts with the words its bank holds.
Registers keep their values, but for the counters of bundles. That the command of an operation issues a bundle of that operation alone
is the model's choice (log entry 16). So is how a drain reads a bank that a last integer operation has left (log entry 41). -/
def Obligations.MatrixIssue : Prop :=
  ∀ (n : CoreId) (bank acc : Bool) (fa fb : BitVec 4) (k : BitVec 16) (ga gb : BitVec 4) (mode : BitVec 3) (fmt : BitVec 4)
    (rnd : BitVec 2) (count : BitVec 6) (dest : BitVec 5) (window : BitVec 11) (s : State),
    let pre := preIssue s n
    let m := pre.matrixOp bank acc fa fb k ga gb
    (Issues s n (.m (.mma bank acc fa fb k ga gb)) → ∃ t, exec (.mma n bank acc fa fb k ga gb) s = .next t
      ∧ (coreOf t n).regs = (pre.stepCounters 1).regs ∧ (coreOf t n).scratch = pre.scratch ∧ (coreOf t n).drains = pre.drains
      ∧ m.a = pre.agAddress ga.toNat ∧ m.b = pre.agAddress gb.toNat ∧ m.k = (if k = 0 then 65536 else k.toNat)
      ∧ (pre.queued ≠ [] → LeavesCore s t n { pre with mops := pre.mops ++ [m] })
      ∧ (pre.queued = [] → pre.mops = [] → (coreOf t n).mops = [{ m with enter := some pre.cycle }]
          ∧ ∀ i j, i < 64 → j < 128 →
              (coreOf t n).accWord (!bank) i j = pre.accWord (!bank) i j
              ∧ (let word := (coreOf t n).accWord bank i j
                let old : BitVec 32 := if acc then pre.accWord bank i j else 0
                let wa := codeBits fa.toNat
                let wb := codeBits fb.toNat
                let element (base lines fmt w s' r : Nat) : Nat := leNat (pre.readScratch base (m.k * lines * w / 8))
                  / 2 ^ (if codeMx fmt then (lines * (s' / 32) + r) * 32 * w + s' % 32 * w else (lines * s' + r) * w) % 2 ^ w
                let scale (base lines fmt s' r : Nat) : Nat := if codeMx fmt
                  then field (pre.readScratch base (m.k * lines / 32)) (lines * (s' / 32) + r) 1 else 127
                let x (s' : Nat) : Nat := element m.a 64 fa.toNat wa s' i
                let y (s' : Nat) : Nat := element m.b 128 fb.toNat wb s' j
                (codeInteger fa.toNat = true →
                  let products := (List.range m.k).map fun s' => (BitVec.ofNat wa (x s')).toInt * (BitVec.ofNat wb (y s')).toInt
                  old.toInt.natAbs + (products.map Int.natAbs).sum < 2 ^ 31 → word.toInt = old.toInt + products.sum)
                ∧ (codeInteger fa.toNat = false →
                  let g := if fa.toNat ≤ 2 ∨ fb.toNat ≤ 2 then 1 else 32
                  ∃ run : Nat → Nat, run 0 = old.toNat ∧ run ((m.k + g - 1) / g) = word.toNat
                    ∧ ∀ (u : Nat) (c : Rat) (p q : Nat → Rat), g * u < m.k → FloatFmt.fp32.value (run u) = some c →
                      (∀ s', s' < m.k → (elementValue fa.toNat (scale m.scaleA 64 fa.toNat s' i) (x s')).rat = some (p s')
                        ∧ (elementValue fb.toNat (scale m.scaleB 128 fb.toNat s' j) (y s')).rat = some (q s')) →
                      let z := c + ((List.range (min g (m.k - g * u))).map fun r => p (g * u + r) * q (g * u + r)).sum
                      FloatFmt.fp32.holds z → Nearest .fp32 z (run (u + 1))))))
    ∧ (Issues s n (.m (.drain bank mode fmt rnd count dest window)) →
      ∃ t, exec (.drain n bank mode fmt rnd count dest window) s = .next t
      ∧ (coreOf t n).acc = pre.acc ∧ (coreOf t n).scratch = pre.scratch ∧ (coreOf t n).mops = pre.mops
      ∧ (coreOf t n).regs.x = pre.regs.x ∧ (coreOf t n).regs.v = pre.regs.v ∧ (coreOf t n).regs.k = pre.regs.k
      ∧ ∃ d, d ∈ (coreOf t n).drains ∧ d.bank = bank ∧ d.mode = mode.toNat ∧ d.row = 0 ∧ d.issued = pre.cycle
        ∧ d.count = (if count = 0 then 64 else count.toNat) ∧ d.window = window.toInt
        ∧ d.dest = (if mode = 0 then dest.toNat else pre.agAddress dest.toNat)
        ∧ ∀ i j, i < 64 → j < 128 → Table.look d.words 0 (128 * i + j) = pre.accWord bank i j)

/-- Matrix, drain and store events (R42 to R44, R50, R101, R102, R104, Table 2.9): the first waiting operation enters the array once
its predecessor has retired; the first complete operation leaves the queue 8 cycles after its last k-step on A1 and 6 on B0; the next
due row of a drain to V lands in its register and in no other, one to scratchpad at its address, as words, converted or as the ledgers
that its read has given, and nowhere else; an integer ledger is the word times 2^-w, added in mode 4 to what stood there; a store
leaves the list of invisible ones at its cycle. The model's choice: the kind of the last operation into a bank decides how a drain
reads it (log entry 41). -/
def Obligations.CoreEvents : Prop :=
  ∀ (n : CoreId) (s : State), let c := coreOf s n
    (∀ before m rest, c.mops = before ++ m :: rest → (∀ x ∈ before, x.enter ≠ none) → m.enter = none →
        (∀ x e, before.getLast? = some x → x.enter = some e → e + x.cycles ≤ c.cycle) →
        ∃ t e, exec (.matrixEnterArray n) s = .next t
          ∧ (coreOf t n).mops = before ++ { m with enter := some e } :: rest ∧ e ≤ c.cycle
          ∧ (∀ x f, before.getLast? = some x → x.enter = some f → e = f + x.cycles)
          ∧ (coreOf t n).regs = c.regs ∧ (coreOf t n).scratch = c.scratch)
    ∧ (∀ before m rest e, c.mops = before ++ m :: rest → (∀ x ∈ before, x.complete (isB0 s) c.cycle = false) →
        m.enter = some e → e + m.cycles + (if isB0 s then 6 else 8) ≤ c.cycle →
        ∃ t, exec (.matrixComplete n) s = .next t
          ∧ coreOf t n = { c with mops := before ++ rest } ∧ OnlyCore s t n)
    ∧ (∀ before d rest, c.drains = before ++ d :: rest → (∀ x ∈ before, x.due (isB0 s) c.cycle = false) →
        d.row < 64 → d.issued + d.row * rowCycles d.mode + (if isB0 s then 3 else 4) ≤ c.cycle → d.mode = 0 →
        ∃ t, exec (.drainRowVisible n) s = .next t
          ∧ (coreOf t n).drains = before ++ { d with row := d.row + 1 } :: rest
          ∧ (coreOf t n).scratch = c.scratch ∧ (coreOf t n).acc = c.acc ∧ (coreOf t n).regs.x = c.regs.x
          ∧ (d.row < d.count → ∀ j, j < 128 →
              laneAt 32 j ((coreOf t n).v ((d.dest + d.row) % 32)) = Table.look d.words 0 (128 * d.row + j))
          ∧ ∀ r, (d.row < d.count → r ≠ (d.dest + d.row) % 32) → (coreOf t n).v r = c.v r)
    ∧ (∀ before d rest, c.drains = before ++ d :: rest → (∀ x ∈ before, x.due (isB0 s) c.cycle = false) →
        d.row < 64 → d.issued + d.row * rowCycles d.mode + (if isB0 s then 3 else 4) ≤ c.cycle → 1 ≤ d.mode → d.mode ≤ 4 →
        let w := if d.mode = 1 then 512 else if d.mode = 2 then (if d.fmt = 1 ∨ d.fmt = 2 then 256 else 128) else 3072
        let a := d.dest + d.row * w
        let bytes := if d.mode ≤ 2 then some (d.rowBytes (envOf s n) d.row)
          else match d.ledgers.find? fun x => x.1 = d.row with
            | some x => x.2
            | none => none
        ∃ t, exec (.drainRowVisible n) s = .next t
          ∧ (coreOf t n).drains = before ++ { d with row := d.row + 1 } :: rest
          ∧ (coreOf t n).regs = c.regs ∧ (coreOf t n).acc = c.acc ∧ (coreOf t n).mops = c.mops ∧ (coreOf t n).waybill = c.waybill
          ∧ (bytes = none → (coreOf t n).scratch = c.scratch)
          ∧ (∀ b r, bytes = some b → b.length = w → c.regionAt a w = some r → r.Apart → StoredIn c (coreOf t n) r a b
              ∧ (r.mode = .plain → OnlyCore s t n))
          ∧ ∀ j, j < 128 → let word := Table.look d.words 0 (128 * d.row + j)
            (∀ b, d.mode = 1 → bytes = some b → b.length = 512 ∧ field b (4 * j) 4 = word.toNat)
            ∧ (∀ b g q, d.mode = 2 → bytes = some b → d.stochastic = false → d.isInt = false → codeFloat d.fmt.toNat = some g →
                FloatFmt.fp32.value word.toNat = some q → g.holds q → Nearest g q (field b (w / 128 * j) (w / 128))))
    ∧ (∀ (d : DrainOp) (row j : Nat) (old : Bytes), j < 128 → d.isInt = true →
        let word := (Table.look d.words 0 (128 * row + j)).toInt
        let k := -(d.window + 32 * (odGet s (od 0x2040 1) : Int))
        let before := BitVec.ofNat 192 (field old (24 * j) 24)
        let l := BitVec.ofInt 192 (word * 2 ^ k.toNat)
        let r := (d.rowLedgers (envOf s n) row old)[j]?
        0 ≤ k → word.natAbs * 2 ^ k.toNat < 2 ^ 159 →
        (d.mode = 3 → r = some ⟨l.toNat, false, false⟩)
        ∧ (d.mode = 4 → r = some (if before.msb = l.msb ∧ (before + l).msb ≠ l.msb then ⟨2 ^ 191, true, false⟩
            else ⟨(before + l).toNat, false, false⟩)))
    ∧ (∃ t, exec (.storeVisible n) s = .next t
        ∧ coreOf t n = { c with stores := c.stores.filter fun x => c.cycle < x.visible } ∧ OnlyCore s t n)

/-- Issue of bundles (R58, R66, R70, R76): a ready bundle issues; outside a region and without a branch the loop nest and the address
step as R66 says; a post bundle takes its core to AT POST, as POST_BUNDLE does; slots read the registers as they stood: in a bundle of
a MOV and an LDX, the MOV gets the old X[a]. The join of a resolved region whose counter has passed N issues and closes the region.
That POST_BUNDLE and the other commands of one operation issue a bundle of it alone is the model's choice (log entry 16). -/
def Obligations.BundleIssues : Prop :=
  ∀ (n : CoreId) (s : State), let s' := freshCycle s n
    let c := coreOf s' n
    let b := bundleAt s' n
    (BundleReady s' n false →
    ∃ t, exec (.bundleIssue n) s = .next t
      ∧ (coreOf t n).issued = c.cycle + 1 ∧ (coreOf t n).cycle = c.cycle
      ∧ (c.region = none → branchOf b.ops = none → ∀ l p, stepNest b.header.ends c.pc 4 0 (loopsAfter c b.ops) = some (l, p) →
          (coreOf t n).loops = l ∧ (coreOf t n).pc = p)
      ∧ (b.header.cls = 2 → (coreOf t n).state = .atPost ∧ (coreOf t n).postTime = now s')
      ∧ (∀ d a x g off, b.ops = [.s (.mov d a 0), .l (.ldx x g off)] → d ≠ x →
          (coreOf t n).x d.toNat = c.x a.toNat
          ∧ (coreOf t n).x x.toNat
              = BitVec.ofNat 64 (leNat (c.readThroughHold (c.operandAddress g off 8).toNat 8)))
      ∧ (b.header.cls = 2 → (coreOf s n).stall = none → nextClass (coreOf s n) = 2 →
          (∀ g, (coreOf s n).region = some g → g.pathDone = false) →
          exec (.postBundle n) s = .next t))
    ∧ (BundleReady s' n true → branchOf b.ops = none →
      ∃ t, exec (.joinIssue n) s = .next t ∧ (coreOf t n).region = none ∧ (coreOf t n).issued = c.cycle + 1)

/-- Releases (R52, R65, R154): a stalled operation whose cause has cleared issues, by STALL_RELEASE whatever it waits for and by
WAIT_RELEASE where it waits at a bit, over a crossing too; a WWB or WDP with clear consumes its bit as it releases. The model names a
wait over a crossing with cause 3 as log entry 58 says. -/
def Obligations.StallReleases : Prop :=
  ∀ (n : CoreId) (cause resource : Nat) (o : SlotOp) (s : State),
    let s0 := modCoreOf s n fun c => { c with stall := none }
    (coreOf s n).stall = some ⟨cause, resource, some o⟩ → inStage s = true → mayIssue (coreOf s0 n) = true →
    Issues s0 n o →
    ∃ t, exec (.stallRelease n) s = .next t
      ∧ (coreOf t n).stall = none ∧ (coreOf t n).issued = (preIssue s0 n).cycle + 1
      ∧ (cause = 1 ∨ cause = 2 ∨ cause = 3 → exec (.waitRelease n) s = .next t)
      ∧ (∀ clear bit, o = .y (.wwb clear bit) → (preIssue s0 n).inShadow = false →
          (coreOf t n).waybill.getLsbD bit.toNat = !clear)
      ∧ (∀ clear outbound desc, o = .y (.wdp clear outbound desc) → (preIssue s0 n).inShadow = false →
          (coreOf t n).done.getLsbD (wdpIndex outbound desc) = !clear)

/-- Branch resolution (R69, R73, R74): BRANCH_RESOLVE completes at its cycle, whatever the window holds, and leaves the region resolved
with an empty hold, on the path of the condition and with its counter kept. A branch that was predicted right keeps what the window
computed and consumes the bits its waits have named; with no store held it leaves scratchpad, and a held fault halts the core. One
predicted wrong gets the copies of its registers back, drops its stores, its shadow depot operations and its held fault, leaves
scratchpad, and issues the other path after the discard of 4 cycles on A1 and 3 on B0. The model writes held stores before a held fault
halts the core (log entry 40). -/
def Obligations.BranchResolves : Prop :=
  ∀ (n : CoreId) (g : BranchRegion) (s : State), let c := coreOf s n
    c.region = some g → c.state = .running → g.resolved = false → g.resolution ≤ c.cycle →
    let condition := decide (Table.look g.saved.k false g.k = g.sense)
    ∃ t, exec (.branchResolve n) s = .next t
      ∧ (∃ h, (coreOf t n).region = some h ∧ h.resolved = true ∧ h.taken = condition ∧ h.counter = g.counter
          ∧ h.hold = [] ∧ h.held = none ∧ h.clears = [] ∧ h.n = g.n
          ∧ (condition ≠ g.taken → h.discardUntil = g.resolution + (if isB0 s then 3 else 4)))
      ∧ (condition = g.taken → (coreOf t n).regs = c.regs)
      ∧ (condition = g.taken → g.hold = [] → (∀ o ∈ c.depots, o.shadow = false) →
          (coreOf t n).scratch = c.scratch
          ∧ (∀ i, i < 1024 → (coreOf t n).waybill.getLsbD i = (c.waybill.getLsbD i && !g.clears.contains (false, i)))
          ∧ (∀ i, i < 56 → (coreOf t n).done.getLsbD i = (c.done.getLsbD i && !g.clears.contains (true, i)))
          ∧ (g.held = none → (coreOf t n).state = .running)
          ∧ (g.held ≠ none → c.haltTaken = false → (coreOf t n).state = .halted))
      ∧ (condition ≠ g.taken →
          (coreOf t n).regs.x = g.saved.x ∧ (coreOf t n).regs.v = g.saved.v ∧ (coreOf t n).regs.k = g.saved.k
          ∧ (coreOf t n).regs.ag = g.saved.ag ∧ (coreOf t n).scratch = c.scratch ∧ (coreOf t n).stall = none
          ∧ (coreOf t n).depots = c.depots.filter (fun o => !o.shadow) ∧ (coreOf t n).stores = g.savedStores)

/-- Depot walks (R110, R125, R130, R146, R151, R153, R164, R166, R201, R303, R343, R440): while the stage's traffic may move, the dies
run and the outer port of its bank is free, a line that may move and reads well arrives in scratchpad; one that reads an uncorrectable
codeword halts the core with 0xA6, and its interface is charged at the line's address. An outbound line goes to external memory; on a
green page to the working frame, which the first write of the stage fills from the fired one and lists, while a full list stops the
device with cause capacity; at a context entry to its working frame, with the writing core, but for the writes that R201 refuses, which
halt the core; a slot header of an outbound waystation becomes a held record, at most 1,024. A walk whose lines are done sets its
completion bit, leaves flight and changes no other descriptor's bits. That an interface takes no strikes but is charged at a line's
address is the model's reading (log entry 42). -/
def Obligations.DepotWalks : Prop :=
  ∀ (n : CoreId) (d : DescId) (o : DepotOp) (s : State), let c := coreOf s n
    c.depots.find? (fun x => x.desc = d.val) = some o →
    let x := readDepot o.descriptor
    let e := (x.line o.offset o.next).1.toNat
    let a := (x.line o.offset o.next).2.toNat
    let b := c.readScratch a 64
    let summed (t : State) (b : Bytes) : Prop := t.observe.fingerprint = s.observe.fingerprint + crc64 b
    let halts (t : State) (code : Nat) : Prop := t.vote.causes.getLsbD causeHalt = true ∧ (c.haltTaken = false →
      (coreOf t n).state = .halted ∧ bits (odGet t (od (0x3000 + n.val) 0x10)) 63 56 = code)
    (stageTraffic s = true → depotMayMove s c o = true → depotReaches s n o = true → d.val < 32 → o.shadow = false → o.kept = [] →
      c.mayTransfer (scratchBank (c.writtenCopy a)) portDepot = true →
      (lineBad s e = 0 → c.writeBreach a 64 true = false → (∀ r, c.regionAt a 64 = some r → r.mode = .plain) →
        ∃ t, exec (.depotLineMove n d) s = .next t
          ∧ (coreOf t n).readScratch a 64 = readExtLine s e ∧ (coreOf t n).regs = c.regs ∧ t.ext = s.ext
          ∧ (coreOf t n).done = c.done)
      ∧ (∀ p, lineBad s e ≠ 0 → locate s (readFrame s e) = some p → ∃ t, exec (.depotLineMove n d) s = .next t ∧ halts t 0xA6
          ∧ t.vote.causes.getLsbD causeHardware = true ∧ (coreOf t n).scratch = c.scratch
          ∧ odGet t (od (ifaceIndex p.iface) 0x13) = (lineBad s e).toNat
          ∧ (let key := unitKey (ifaceKind p.iface) (ifaceUnit p.iface)
            (getStrikes t key).sites = (getStrikes s key).sites ++ [siteLine (readFrame s e)])))
    ∧ (stageTraffic s = true → depotMayMove s c o = true → depotReaches s n o = true → 32 ≤ d.val → (c.regionAt a 64).isSome →
      c.mayTransfer (scratchBank (c.readCopy a)) portDepot = true → c.readError a 64 = none → x.kind = 0 →
      ∃ t, exec (.depotLineMove n d) s = .next t ∧ (coreOf t n).scratch = c.scratch ∧ (coreOf t n).regs = c.regs
        ∧ (∀ w, sendsRecords s o = some w → t.ext = s.ext
          ∧ (s.host.records.length < 1024 → t.host.records = s.host.records ++ [⟨w, n.val, BitVec.ofNat 512 (leNat b)⟩]
              ∧ summed t (BitVec.ofNat 8 w :: b))
          ∧ (1024 ≤ s.host.records.length → t.host.records = s.host.records ∧ t.host.overflow = true
              ∧ t.vote.causes.getLsbD causeCapacity = true ∧ t.vote.stop = true))
        ∧ (sendsRecords s o = none → ∀ k, contextOf s e = some k →
          let old := readEntry (firedEntry s k)
          let new := readEntry b
          let slot := runningSlot s
          let refused : Prop := (∃ m, (getContext s k).writer = some m ∧ m ≠ n.val) ∨ (old.kind ≠ 0 ∧ old.itin ≠ slot)
            ∨ new.itin ≠ slot ∨ 9 ≤ new.k ∨ 3 ≤ new.kind ∨ (96 ≤ new.slot ∧ new.slot ≤ 126) ∨ new.k < new.j
            ∨ (0 < new.k ∧ new.kind = 0) ∨ (old.kind = 1 ∧ new.kind = 2) ∨ (old.kind = 2 ∧ new.kind = 1)
            ∨ (new.kind = 1 ∧ 16 * new.len < old.fired + new.k)
          (refused → t.ext = s.ext ∧ t.ctx = s.ctx ∧ halts t 0x42
            ∧ odGet t (od 0x2008 4) = (odGet s (od 0x2008 4) + 1) % 2 ^ 32 ∧ odGet t (od 0x2008 6) = k)
          ∧ (¬ refused → let b := putField b 345 320 0
            t.ext = (extWrite s (contextFrame s k (!(getContext s k).epoch)) b).ext ∧ summed t (leBytes k 2 ++ b)
            ∧ ∀ j, getContext t j = if j = k then { getContext s k with writer := some n.val } else getContext s j))
        ∧ (sendsRecords s o = none → contextOf s e = none →
          (greenAt s e = none → t.ext = (extWrite s e b).ext ∧ (locate s e ≠ none → e % 64 = 0 → extLine t e = b))
          ∧ (∀ g p, greenAt s e = some g → locate s (4096 * (e / 4096)) = some p →
            let list := Table.look s.ext.touched [] p.iface
            let s1 := extWrite s (workingFrame s g (4096 * (e / 4096))) (extBytes s (firedFrame s g (4096 * (e / 4096))) 4096)
            (e / 4096 ∈ list → t.ext = (extWrite s (workingFrame s g e) b).ext ∧ summed t (leBytes e 8 ++ b))
            ∧ (e / 4096 ∉ list → list.length < 4096 → firstBad s (4096 * (e / 4096)) 4096 = none →
                t.ext = { (extWrite s1 (workingFrame s g e) b).ext with
                  touched := Table.put s.ext.touched [] p.iface (list ++ [e / 4096]) }
                ∧ summed t (leBytes e 8 ++ b))
            ∧ (e / 4096 ∉ list → 4096 ≤ list.length → t.ext.cells = s.ext.cells ∧ t.ext.touched = s.ext.touched
                ∧ t.vote.causes.getLsbD causeCapacity = true ∧ t.vote.stop = true))))
    ∧ (o.finished = true →
      ∃ t, exec (.depotComplete n d) s = .next t ∧ OnlyCore s t n
        ∧ (coreOf t n).depots = c.depots.filter (fun y => y.desc ≠ d.val)
        ∧ (coreOf t n).regs = c.regs ∧ (coreOf t n).scratch = c.scratch
        ∧ ∀ i, i < 56 → (coreOf t n).done.getLsbD i = (c.done.getLsbD i || i == d.val)
          ∧ (coreOf t n).inFlight.getLsbD i = (c.inFlight.getLsbD i && !(i == d.val)))

/-- Upkeep of memory (R110, R112, R127, R147, R161, R307, R457, R464): a good re-read takes its line off the list and changes no
object; a patrol scrub rewrites a corrected line and counts it, on an interface in state 1 of a die that runs, where nothing else
waits; a refresh changes nothing but the events that counters have seen and the postponed ones, of which it makes up all where no plan
request waits, and none of a die in reset; the scratchpad scrubber counts a mismatch in a line it reads and notes it for repair; an
outer port that is free is granted to the lowest-numbered waiting user alone, and a waiting mirror write that is granted takes it. The
model's choices: an error enters the state with the command that reports it (log entry 19), a corrected read counts where a scrub finds
it (log entry 42), and an event that is not due changes nothing (log entry 14). -/
def Obligations.MemoryUpkeep : Prop :=
  ∀ (n : CoreId) (i : IfaceId) (line : BitVec 48) (address : BitVec 24) (bank : Fin 24) (want : BitVec 4) (p : Place) (s : State),
    let a := line.toNat / 64 * 64
    let w := address.toNat / 8 * 8
    (locate s a = some p → p.iface = i.val → (∃ r ∈ s.ext.rereads, r.1 = a) →
      ∃ t, exec (.reReadDone i line .clean) s = .next t
        ∧ t.ext.rereads = dropReread a s.ext.rereads ∧ Table.look t.ext.bad 0 (a / 64) = 0 ∧ t.ext.cells = s.ext.cells
        ∧ t.ext.lost = s.ext.lost ∧ t.cores = s.cores ∧ t.od = s.od)
    ∧ (locate s a = some p → scrubberReads s p.iface = false → exec (.patrolScrub line .corrected none) s = .next s)
    ∧ (locate s a = some p → scrubberReads s p.iface = true →
      ∃ t, exec (.patrolScrub line .corrected none) s = .next t
        ∧ odGet t (od (ifaceIndex p.iface) 0x10) = (odGet s (od (ifaceIndex p.iface) 0x10) + 1) % 2 ^ 32
        ∧ Table.look t.ext.bad 0 (a / 64) = 0 ∧ t.ext.cells = s.ext.cells ∧ t.vote = s.vote ∧ t.cores = s.cores)
    ∧ (∃ t, exec (.refresh i) s = .next t
        ∧ t = { s with
            ext := { s.ext with postponed := t.ext.postponed }
            observe := { s.observe with accum := t.observe.accum } }
        ∧ (∀ j, j ≠ i.val → Table.look t.ext.postponed 0 j = Table.look s.ext.postponed 0 j)
        ∧ (memoryRuns s i.val = false → t = s)
        ∧ (memoryRuns s i.val = true → planWaits s i.val = false → Table.look t.ext.postponed 0 i.val = 0)
        ∧ (memoryRuns s i.val = true → Table.look t.ext.postponed 0 i.val = 0
            ∨ planWaits s i.val = true ∧ Table.look t.ext.postponed 0 i.val = Table.look s.ext.postponed 0 i.val + 1))
    ∧ ((coreOf s n).scrubs w = true →
      ∃ t, exec (.scrubDetect n address none) s = .next t
        ∧ odGet t (od (0x3000 + n.val) 0x22) = w
        ∧ odGet t (od (0x3000 + n.val) 0x21) = (odGet s (od (0x3000 + n.val) 0x21) + 1) % 2 ^ 32
        ∧ (coreOf t n).repairs = (coreOf s n).repairs ++ [w] ∧ w ∈ (coreOf t n).scratchErrors
        ∧ t.vote.causes = s.vote.causes ∧ (coreOf t n).regs = (coreOf s n).regs ∧ (coreOf t n).scratch = (coreOf s n).scratch)
    ∧ (let c := coreOf s n
      let before := Table.look c.outer 0 bank.val ||| want
      let mirror := c.mirrors.find? fun m => m.1 = bank.val
      ∃ t, exec (.outerPortGrant n bank want) s = .next t
        ∧ (c.portFree bank.val = false ∨ mirrorFirst before = false ∨ mirror = none → OnlyCore s t n
            ∧ coreOf t n = { c with outer := (coreOf t n).outer }
            ∧ ∀ j, j < 4 → (Table.look (coreOf t n).outer 0 bank.val).getLsbD j
                = (before.getLsbD j && (!c.portFree bank.val || decide (∃ k, k < j ∧ before.getLsbD k = true))))
        ∧ (c.portFree bank.val = true → mirrorFirst before = true → mirror ≠ none →
            (coreOf t n).mirrors = dropMirror bank.val c.mirrors ∧ (coreOf t n).portFree bank.val = false
            ∧ (coreOf t n).regs = c.regs ∧ (coreOf t n).scratch = c.scratch))

/-- Writes into instruction banks (R77, R149, Table 3.11): the status is 0x05 for a core on standby or off, 0x03 for a retired
one, 0x02 out of range, 0x01 for the active bank, 0x04 for an error in the data, else 0x00; only 0x00 writes, and then just the
named entry; every other entry, register and byte of scratchpad stays. The order in which the statuses are judged is the model's choice
(log entry 20): Table 3.11 gives the codes and no order. -/
def Obligations.BankWrites : Prop :=
  ∀ (n : CoreId) (bank bad : Bool) (a i d : Nat) (v : BitVec 256) (w : BitVec 32) (s : State), let c := coreOf s n
    let status (inRange : Prop) [Decidable inRange] : Nat :=
      if c.state = .standby ∨ c.state = .off then 0x05 else if c.state = .retired then 0x03 else if ¬ inRange then 0x02
      else if c.hasBank ∧ c.bank = bank then 0x01 else if bad then 0x04 else 0x00
    (∃ t, exec (.bankWrite n bank (.bundle a v) bad) s = .next t
      ∧ odGet t (od (0x3000 + n.val) 5) = status (a < 4096)
      ∧ coreOf t n = { c with bundles := (coreOf t n).bundles, bankErrors := (coreOf t n).bankErrors }
      ∧ ∀ k, Table.look (coreOf t n).bundles 0 k
          = if status (a < 4096) = 0 ∧ k = 4096 * flag bank + a then v else Table.look c.bundles 0 k)
    ∧ (∃ t, exec (.bankWrite n bank (.stageTable i w) bad) s = .next t
      ∧ odGet t (od (0x3000 + n.val) 5) = status (i < 256)
      ∧ coreOf t n = { c with stageTable := (coreOf t n).stageTable, bankErrors := (coreOf t n).bankErrors }
      ∧ ∀ k, Table.look (coreOf t n).stageTable 0 k
          = if status (i < 256) = 0 ∧ k = 256 * flag bank + i then w else Table.look c.stageTable 0 k)
    ∧ (∃ t, exec (.descriptorWrite n bank d v bad) s = .next t
      ∧ odGet t (od (0x3000 + n.val) 5) = status (d < 56)
      ∧ coreOf t n = { c with descriptors := (coreOf t n).descriptors }
      ∧ ∀ k, Table.look (coreOf t n).descriptors 0 k
          = if status (d < 56) = 0 ∧ k = 56 * flag bank + d then v else Table.look c.descriptors 0 k)

/-- Glaze requests on their way (R172, R174, R176, R191, R194): in a stage before its rest, a fabric request of whole lines leaves the inbox
and waits with its arrival, and the oldest waiting request is accepted while fewer than 10 are held and the engine is enabled; a
steward request of op 4 or 5 joins the dynamic operations, at most four, of an engine in state 1, and one in another state takes
none; outside a stage no plan request is taken. Every other engine, core and memory byte stays. The model's choices: the bytes of a
fabric request leave the inbox as it arrives (log entry 43), and a command outside a stage changes nothing (log entry 14). -/
def Obligations.GlazeQueues : Prop :=
  ∀ (g : EngineId) (request : Bytes) (s : State), let e := getEngine s g
    (plansServed s = true → request ≠ [] → request.length % 64 = 0 → e.inbox.take request.length = request →
      ∃ t, exec (.glazeRequestArrive g .fabric request) s = .next t
        ∧ t = { s with engines := t.engines } ∧ (∀ j, j ≠ g.val → getEngine t j = getEngine s j)
        ∧ (getEngine t g).inbox = e.inbox.drop request.length ∧ (getEngine t g).held = e.held
        ∧ ∀ q, q ∈ (getEngine t g).waiting ↔ q = ⟨none, request, now s⟩ ∨ q ∈ e.waiting)
    ∧ (odGet s (od (engineIndex g) 2) ≠ 1 → exec (.glazeRequestArrive g .steward request) s = .next s)
    ∧ (odGet s (od (engineIndex g) 2) = 1 → ((readGlazeHeader request).op = 4 ∨ (readGlazeHeader request).op = 5) →
      e.dynamic.length < 4 →
      ∃ t, exec (.glazeRequestArrive g .steward request) s = .next t
        ∧ t = { s with engines := t.engines } ∧ (∀ j, j ≠ g.val → getEngine t j = getEngine s j)
        ∧ getEngine t g = { e with dynamic := e.dynamic ++ [⟨request, 0, 0, 0, 0, []⟩] })
    ∧ (plansServed s = false → exec (.glazeRequestArrive g .fabric request) s = .next s ∧ exec (.glazeAccept g) s = .next s)
    ∧ (∀ q rest, plansServed s = true → memoryRuns s g = true → e.waiting = q :: rest → e.held.length < 10 →
        odGet s (od (engineIndex g) 2) = 1 →
      ∃ t, exec (.glazeAccept g) s = .next t
        ∧ getEngine t g = { e with waiting := rest, held := e.held ++ [q] } ∧ t.ext = s.ext
        ∧ ∀ j, j ≠ g.val → getEngine t j = getEngine s j)

/-- Plan requests (R173, R174, R176 to R178, R181, R184, R185, R187 to R190, R194, Tables 7.3 and 7.12): in a stage before its rest,
ATTENTION, GATHER and LEDGER_REDUCE perform the oldest held request of their op, which leaves the engine. Over one page, a row of
ATTENTION answers the largest score, the sum of the weights and the weighted values by the roundings of R184, and one that scores
nothing answers −∞, 0 and 0; GATHER answers each element times its scale, rounded once; LEDGER_REDUCE answers the exact sum of the
sources as a ledger, or rounded once. A request whose datapath finds a check error fails with status 0x04 and makes the vote foul with
a hardware error; a success is counted in OD 41gg.03, a failure in OD 41gg.04 with its op and status in OD 41gg.05; a successful reply
whose lines may be written stands at its address, its status line first, and sets its waybill bit. The model's choices: a request is
performed at one instant of its command (log entry 21), with the details of log entry 43. -/
def Obligations.GlazeReplies : Prop :=
  ∀ (g : EngineId) (q : GlazeReq) (rest : List GlazeReq) (s : State),
    let h := readGlazeHeader q.bytes
    let made := performPlan s g q.bytes
    let r := made.2
    let c (run : EngineRun) : Instr := match h.op with
      | 1 => .attention run
      | 2 => .gather run
      | _ => .ledgerReduce run
    (getEngine s g).held = q :: rest → (h.op = 1 ∨ h.op = 2 ∨ h.op = 3) → plansServed s = true → memoryRuns s g = true →
    replyMayPass s h.core h.reply = true →
    (∃ t, exec (c ⟨g, true⟩) s = .next t ∧ (getEngine t g).held = rest
      ∧ odGet t (od (engineIndex g) 5) = h.op * 256 + 4 ∧ t.vote.causes.getLsbD causeHardware = true)
    ∧ ∃ t, exec (c ⟨g, false⟩) s = .next t ∧ (getEngine t g).held = rest
      ∧ (r.status = 0 →
          odGet t (od (engineIndex g) 3) = (odGet made.1 (od (engineIndex g) 3) + 1) % 2 ^ 32
          ∧ odGet t (od (engineIndex g) 4) = odGet made.1 (od (engineIndex g) 4))
      ∧ (r.status ≠ 0 → r.status < 256 →
          odGet t (od (engineIndex g) 4) = (odGet made.1 (od (engineIndex g) 4) + 1) % 2 ^ 32
          ∧ odGet t (od (engineIndex g) 5) = h.op * 256 + r.status)
      ∧ (let b := statusLine g h r ++ padLines r.data
        ∀ a, a.mode = .plain → a.fill = true → h.core < 288 → h.waybill < 1024 → r.status = 0 →
          (∀ i, i < b.length / 64 → (coreOf made.1 h.core).regionAt (h.reply + 64 * i) 64 = some a
            ∧ (coreOf made.1 h.core).guarded (boundsOf (h.reply + 64 * i : Nat) 64) = false) →
          (∀ i, i < b.length / 64 → (coreOf t h.core).readScratch (h.reply + 64 * i) 64 = slice b (64 * i) 64)
          ∧ (coreOf t h.core).waybill.getLsbD h.waybill = true)
      ∧ ((getEngine s g).checkError = false → h.wellFormed q.bytes = true →
        (h.op = 1 →
          let p := readAttention h.params
          let n := p.tb / 16
          let entry := leNat (readExt s (p.pt + 8 * n) 8)
          let page := bits entry 47 16 * 65536
          p.valid h.body = true → (p.te - 1) / 16 = n → firstBad s (p.pt + 8 * n) 8 = none → bitAt entry 63 = true →
          inLocal s g page 65536 = true → firstBad s page 65536 = none →
          r.status = 0 ∧ r.count = 1 ∧ ∀ j, j < p.rows →
            let out (i : Nat) : Nat := field r.data ((8 + 4 * p.hd) * j + 4 * i) 4
            let scored := (List.range 16).filter fun c => p.tb ≤ 16 * n + c && 16 * n + c < p.te && 16 * n + c < field (glazeBody q.bytes) (4 * j) 4
            let value (code : Nat) (b : Bytes) (i : Nat) : Option Rat :=
              (elementValue code 127 (field b (codeBits code / 8 * i) (codeBits code / 8))).rat
            let row (c half i : Nat) : Option Rat := value p.kvf (readExt s (page + 32768 * half + (16 * p.h + c) * p.hd * p.es) (p.hd * p.es)) i
            (scored = [] → out 0 = 0xFF800000 ∧ out 1 = 0 ∧ ∀ m e i, p.sv = .fin false m e → i < p.hd → out (2 + i) = 0)
            ∧ ∀ (x : Nat → Rat) (k v : Nat → Nat → Rat) (u d o : Nat → Nat) (u' y w o' : Nat → Rat) (sk sv top : Rat),
              scored ≠ [] → p.sk.rat = some sk → p.sv.rat = some sv →
              (∀ i, i < p.hd → value p.qf ((glazeBody q.bytes).drop (64 * (1 + p.queryLines * j))) i = some (x i)) →
              (∀ c i, c ∈ scored → i < p.hd → row c 0 i = some (k c i) ∧ row c 1 i = some (v c i)) →
              let dot (c : Nat) : Rat := ((List.range p.hd).map fun i => x i * k c i).sum
              (∀ c ∈ scored, FloatFmt.fp32.holds (dot c) ∧ Nearest .fp32 (dot c) (u c) ∧ FloatFmt.fp32.value (u c) = some (u' c)
                ∧ FloatFmt.fp32.holds (u' c * sk)) →
              (∀ c ∈ scored, ∃ z, Nearest .fp32 (u' c * sk) z ∧ FloatFmt.fp32.value z = some (y c)) →
              top ∈ scored.map y → (∀ c ∈ scored, y c ≤ top) →
              (∀ c ∈ scored, FloatFmt.fp32.holds (y c - top) ∧ Nearest .fp32 (y c - top) (d c)
                ∧ (exp32 (FloatFmt.fp32.read (d c))).rat = some (w c)) →
              let l := (scored.map w).sum
              FloatFmt.fp32.holds l →
              let mixed (i : Nat) : Rat := (scored.map fun c => w c * v c i).sum
              (∀ i, i < p.hd → FloatFmt.fp32.holds (mixed i) ∧ Nearest .fp32 (mixed i) (o i) ∧ FloatFmt.fp32.value (o i) = some (o' i)
                ∧ FloatFmt.fp32.holds (o' i * sv)) →
              FloatFmt.fp32.value (out 0) = some top ∧ Nearest .fp32 l (out 1) ∧ ∀ i, i < p.hd → Nearest .fp32 (o' i * sv) (out (2 + i)))
        ∧ (h.op = 2 →
          let p := readGather h.params
          let index (k : Nat) : Nat := field (glazeBody q.bytes) (4 * k) 4
          let source (k : Nat) : Nat := p.src + 64 * p.stride * index k
          let scales (k : Nat) : Nat := p.scl + p.scaleSize * (index k * p.blocks)
          let w := codeBits p.tf / 8
          p.valid h.body = true →
          (∀ k, k < p.n → inLocal s g (source k) p.rowBytes = true ∧ inLocal s g (scales k) (p.scaleSize * p.blocks) = true
            ∧ firstBad s (source k) p.rowBytes = none ∧ firstBad s (scales k) (p.scaleSize * p.blocks) = none) →
          r.status = 0 ∧ r.count = p.n ∧ r.data.length = p.n * p.outBytes ∧ ∀ k, k < p.n →
            (∀ i, 32 * p.blocks * w ≤ i → i < p.outBytes → r.data.getD (k * p.outBytes + i) 0 = 0)
            ∧ ∀ j, j < 32 * p.blocks →
              let e := leNat (readExt s (source k) p.rowBytes) / 2 ^ (codeBits p.sf * j) % 2 ^ codeBits p.sf
              let scale := field (readExt s (scales k) (p.scaleSize * p.blocks)) (p.scaleSize * (j / 32)) p.scaleSize
              let out := field r.data (k * p.outBytes + w * j) w
              ∀ f, codeFloat p.tf = some f →
                (∀ z, (elementValue p.sf scale e).rat = some z → codeMx p.sf = true → f.holds z → Nearest f z out)
                ∧ (codeMx p.sf = true → scale = 0xFF → out = f.nanBits)
                ∧ ∀ z, codeMx p.sf = false → FloatFmt.fp32.value scale = some z →
                    let x := ((BitVec.ofNat (codeBits p.sf) e).toInt : Rat) * z
                    f.holds x → Nearest f x out)
        ∧ (h.op = 3 →
          let p := readReduce h.params
          let n := p.k + if p.bodyv then 1 else 0
          let source (k : Nat) : Bytes := if k < p.k then readExt s (p.src + 64 * p.vstride * k) p.vectorBytes else glazeBody q.bytes
          let base : Int := p.b + 32 * odGet s (od 0x2040 1)
          p.valid h.body = true →
          (∀ k, k < p.k → inLocal s g (p.src + 64 * p.vstride * k) p.vectorBytes = true
            ∧ firstBad s (p.src + 64 * p.vstride * k) p.vectorBytes = none) →
          r.status = 0 ∧ r.count = p.e ∧ ∀ e, e < p.e → ∀ m : Nat → Int,
            (∀ k, k < n → (m k).natAbs < 2 ^ 159 ∧ (if p.st = 1 then (BitVec.ofNat 192 (field (source k) (24 * e) 24)).toInt = m k
              else FloatFmt.fp32.value (field (source k) (4 * e) 4) = some (m k * (2 : Rat) ^ base))) →
            let sum := ((List.range n).map m).sum
            (p.out = 0 → field r.data (24 * e) 24 = (BitVec.ofInt 192 sum).toNat)
            ∧ ∀ f w, (p.out = 1 ∧ f = .fp64 ∧ w = 8 ∨ p.out = 2 ∧ f = .fp32 ∧ w = 4 ∨ p.out = 3 ∧ f = .bf16 ∧ w = 2
                ∨ p.out = 4 ∧ f = .fp16 ∧ w = 2) →
              FloatFmt.holds f (sum * (2 : Rat) ^ base) → Nearest f (sum * (2 : Rat) ^ base) (field r.data (w * e) w)))

/-- Page copies (R180, R191 to R193): with no plan request held or waiting, PAGE_COPY and COMPACTION move the next line of the oldest
dynamic operation of their op from its source page to its destination page; a pair's last line counts the page, and the last pair of a
local operation reports and leaves; a remote operation sends two lines in a bale and leaves memory. While a plan request is held or
waits the operation is suspended. The model's choices: a line is moved at one instant of its command (log entry 21), and a command with
nothing to move changes nothing (log entry 14). -/
def Obligations.PageCopies : Prop :=
  ∀ (g : EngineId) (d : DynOp) (rest : List DynOp) (s : State), let e := getEngine s g
    let h := readGlazeHeader d.bytes
    let p := readCopy h.params
    let pair := copyPair (glazeBody d.bytes) d.next
    let c := if h.op = 4 then Instr.pageCopy ⟨g, false⟩ else Instr.compaction ⟨g, false⟩
    let counted (t : State) (sub : Nat) : Prop :=
      odGet t (od (engineIndex g) sub) = (odGet s (od (engineIndex g) sub) + 1) % 2 ^ odBits (od (engineIndex g) sub)
    e.dynamic = d :: rest → (h.op = 4 ∨ h.op = 5) →
    (e.held ≠ [] ∨ e.waiting ≠ [] → exec c s = .next s)
    ∧ (e.held = [] → e.waiting = [] → e.checkError = false → odGet s (od (engineIndex g) 2) = 1 → memoryRuns s g = true →
      (d.next = 0 → d.line = 0 → copyValid s g d.bytes = true) → d.next < p.n →
      (p.remote = true → copyBad s pair.1 d.line 2 = none → ∃ t, exec c s = .next t ∧ t.cores = s.cores ∧ t.ext = s.ext)
      ∧ (p.remote = false → copyBad s pair.1 d.line 1 = none → pageRefused s g pair.2 65536 = false →
      ∃ t, exec c s = .next t ∧ t.cores = s.cores
        ∧ t.ext = (extWrite s (pair.2 + 64 * d.line) (readExtLine s (pair.1 + 64 * d.line))).ext
        ∧ (d.line ≠ 1023 → (getEngine t g).dynamic = { d with line := d.line + 1 } :: rest ∧ t.od = s.od)
        ∧ (d.line = 1023 → counted t 0x12
            ∧ (d.next + 1 < p.n →
                (getEngine t g).dynamic = { d with next := d.next + 1, copied := d.copied + 1, line := 0 } :: rest)
            ∧ (d.next + 1 = p.n → (getEngine t g).dynamic = rest ∧ counted t 0x10))))

/-- Mesh and die-to-die moves (R110, R145, R218, R281, R285, R286, R305, R465, Table 11.5): while its die's clock runs, and a plan die
that was reset has been reloaded, a due flit of an entry of one flit leaves its in port for the neighbour's, two core cycles later along a row and six down a column, or, four cycles later,
is written at its stop's own core and sets its waybill bit there; a unit of a send entry of one unit that has been at the edge
for 48 ticks is delivered at the far side by its receive entry. What a hop has turned is corrected where R145 can; else the unit
goes on marked, and the receiver is charged with a hardware error. An entry of another step moves nothing. The model's choices: the
numbering of the sides (log entry 23), six cycles at the die's edge at every step and the units that wait there (log entry 24), and the
bytes of a unit at an inbox that lie beyond its bales' whole lines (log entry 60). -/
def Obligations.MeshAndDieMoves : Prop :=
  ∀ (row : RowId) (stop : Fin 13) (h : MeshHop) (side : Fin 6) (hop : DieHop) (u : BitVec 1024) (s : State),
    let i := h.entry
    let j := hop.entry
    let e := meshEntry s row.val stop.val i.val
    let k := portKey row.val stop.val e.input
    let due := stopCycle s row.val stop.val
    let d := dieEntry s side.val j.val
    let r := dieEntry s (farSide side.val) j.val
    let moved (t : State) (rest : List (Nat × FabricUnit)) (port : Nat) (cycles : Nat) : Prop :=
      meshMoved t row.val stop.val i.val = 1 ∧ unitsAt t k = rest ∧ t.cores = s.cores ∧ t.ext = s.ext
      ∧ unitsAt t port = unitsAt s port ++ [(due + cycles, checkedUnit (receiveUnit u h.error))]
      ∧ (h.error = 0 → t = { s with fabric := { s.fabric with units := t.fabric.units, meshDone := t.fabric.meshDone } })
      ∧ (receiveUnit u h.error = none → t.vote.causes.getLsbD causeHardware = true)
    receiveUnit u 0 = some u
    ∧ (e.step ≠ odGet s (od 0x2410 3) ∨ dieMoves s (row.val / 12) = false → exec (.meshMove row stop h) s = .next s)
    ∧ (∀ at' rest, e.valid = true → e.step = odGet s (od 0x2410 3) → stageTraffic s = true → dieMoves s (row.val / 12) = true →
        e.count = 1 → meshMoved s row.val stop.val i.val = 0 → e.first + (if e.output = portOwn then 4 else 0) ≤ due →
        meshClash s row.val stop.val i.val e e.first = false →
        e.input ≠ portOwn → unitsAt s k = (at', .data u) :: rest → at' ≤ due →
        (e.output = portEast → stop.val ≠ 12 → ∃ t, exec (.meshMove row stop h) s = .next t
          ∧ moved t rest (portKey row.val (stop.val + 1) portWest) 2)
        ∧ (e.output = portSouth → row.val % 12 ≠ 11 → ∃ t, exec (.meshMove row stop h) s = .next t
          ∧ moved t rest (portKey (row.val + 1) stop.val portNorth) 6)
        ∧ (∀ n a b, e.output = portOwn → e.reduce = false → logicalOf s (13 * row.val + stop.val) = some n → h.error = 0 →
            portTaken s row.val stop.val (flitPorts s row.val stop.val e e.first) (e.first + 4) = false →
            linkEndsAt s n e.address = [] → endBroken s (meshEnd row.val stop.val i.val) = false →
            (coreOf s n).regionAt e.address 64 = some a → (coreOf s n).regionAt (e.address + 64) 64 = some b →
            a.fill = true → b.fill = true → a.mode = .plain → b.mode = .plain →
            (coreOf s n).guarded (boundsOf e.address 64) = false → (coreOf s n).guarded (boundsOf (e.address + 64) 64) = false →
            ∃ t, exec (.meshMove row stop h) s = .next t
              ∧ (coreOf t n).readScratch e.address 64 ++ (coreOf t n).readScratch (e.address + 64) 64 = leBytes u.toNat 128
              ∧ (coreOf t n).waybill = (coreOf s n).waybill ||| BitVec.ofNat 1024 (2 ^ e.waybill)
              ∧ (coreOf t n).regs = (coreOf s n).regs ∧ t.ext = s.ext))
    ∧ (dieMoves s (sideDie side.val) = false → exec (.dieToDieMove side hop) s = .next s)
    ∧ (∀ at' rest, d.valid = true → d.receive = false → d.fromPort side.val = false → stageTraffic s = true → d.count = 1 →
        dieMoves s (sideDie side.val) = true → dieMoves s (sideDie (farSide side.val)) = true → dieMoved s side.val j.val = 0 →
        s.stage.start + 4 * d.interval 0 + 48 ≤ now s → unitsAt s (dieKey side.val j.val) = (at', .data u) :: rest →
        at' + 48 ≤ now s → dieClash s side.val j.val d (d.interval 0) = false → r.valid = true → r.receive = true →
        let v := receiveUnit u hop.error
        ∃ t, exec (.dieToDieMove side hop) s = .next t ∧ dieMoved t side.val j.val = 1 ∧ t.cores = s.cores ∧ t.ext = s.ext
          ∧ (v = none → t.vote.causes.getLsbD causeHardware = true)
          ∧ (r.far = 0 → ∀ x y, sideStop (farSide side.val) r.row = some (x, y) →
              unitsAt t (portKey x y portEdge) = unitsAt s (portKey x y portEdge) ++ [(stopCycle s x y + 6, checkedUnit v)])
          ∧ (∀ w, r.far = 1 → v = some w → Table.look t.fabric.sources none (sourceKey r.link r.entry
              (streamPlace (joined s (farSide side.val) true r.link r.entry) j.val r 0)) = some w)
          ∧ (∀ w, r.far = 2 → v = some w → (getEngine t r.engine).inbox = (getEngine s r.engine).inbox
              ++ leBytes w.toNat (inboxPart s r.engine r.count 0))
          ∧ (∀ o, r.far = 3 → otherSide (farSide side.val) = some o →
              unitsAt t (dieKey o r.entry) = unitsAt s (dieKey o r.entry) ++ [(now s, checkedUnit v)]))

/-- The device's vote and the post (R22, R297 to R300, R303): 64 ticks into the rest it decides the strikes and forms its vote, foul
exactly where a cause has arisen, and clears what the vote takes; a vote of its own post enters once for its phase and peer; one of
another post counts as foul with causes split and stop, and is escalated; the votes missing at a phase's deadline count as absent, with
stop. Where the last phase is complete, by a vote or by its deadline, the device does the post's actions on the combined vote. The
model's choices: the spill flags clear as the vote forms and the post's actions come at once (log entry 44), notice 0x0A names the
peer's coordinate (log entry 45), and a vote or deadline that is not due changes nothing (log entry 14). -/
def Obligations.VotesFormAndArrive : Prop :=
  ∀ (l : LinkId) (source : BitVec 20) (payload : Bytes) (s : State),
    (s.stage.phase = .rest → now s < s.vote.t0 + 64 → exec .voteForm s = .next s)
    ∧ (∀ a axes, s.stage.phase = .rest → s.vote.t0 + 64 ≤ now s → s.boot.runningFirmware = true → stewardRuns s = true →
        usedAxes s = a :: axes →
        linePeers s a ≠ [] → s.vote.received = [] →
        ∃ t v, exec .voteForm s = .next t ∧ t.vote.own = some v ∧ t.vote.combined = some v ∧ t.stage.phase = .voted
          ∧ v.foul = decide (v.causes ≠ 0) ∧ (∀ b, s.vote.causes.getLsbD b = true → v.causes.getLsbD b = true)
          ∧ (s.vote.stop = true → v.stop = true) ∧ t.vote.causes = 0 ∧ t.vote.stop = false
          ∧ odGet t (od 0x2040 2) = 0 ∧ odGet t (od 0x2040 3) = 0 ∧ odGet t (od 0x4C08 2) = s.observe.fingerprint.toNat
          ∧ (s.power.survey = false → (s.strikes.map (·.1)).Nodup → ∀ key x, (key, x) ∈ s.strikes → x.sites ≠ [] →
            let y := getStrikes t key
            let history := x.history <<< (1 : Nat) ||| 1
            y.sites = [] ∧ y.lastSites = x.sites ∧ y.history = history
            ∧ (y.permanent = true ↔ x.permanent = true
              ∨ (strikeKind (key / 65536) = true ∧ 3 ≤ ((List.range 64).filter history.getLsbD).length)
              ∨ (siteKind (key / 65536) = true ∧ x.history.getLsbD 0 = true ∧ ∃ a ∈ x.sites, a ∈ x.lastSites))))
    ∧ (let m := readVote payload
      let coord := (peerCoordinate s l.val).getD (physicalOf s source.toNat)
      ∀ q, (s.stage.phase = .stage ∨ s.stage.phase = .rest) → m.relayed = false → peerOnAxis s m.phase coord = some q →
        s.vote.phase ≤ m.phase → receivedVote s m.phase q = none →
        ∃ t, exec (.postVote l source payload) s = .next t ∧ t.cores = s.cores ∧ t.ext = s.ext
          ∧ (m.number = s.vote.number → m.prevNumber = s.vote.prevNumber → m.prevFoul = s.vote.prevFoul →
              t = { s with vote := { s.vote with received := s.vote.received ++ [(m.phase, q, m.vote)] } })
          ∧ (m.number ≠ s.vote.number ∨ m.prevNumber ≠ s.vote.prevNumber ∨ m.prevFoul ≠ s.vote.prevFoul →
              (∃ v, t.vote.received = s.vote.received ++ [(m.phase, q, v)] ∧ v.foul = true ∧ v.stop = true
                ∧ v.causes = BitVec.ofNat 16 (2 ^ causeSplit))
              ∧ odGet t (od 0x2030 7) = (odGet s (od 0x2030 7) + 1) % 2 ^ 32
              ∧ t.vote.raised = s.vote.raised ++ [(0x0A, kindDevice, coord, 0)]))
    ∧ (let m := readVote payload
      let k := s.vote.phase
      ∀ a q own, s.stage.phase = .voted → runs s = true → s.boot.runningFirmware = true → stewardRuns s = true →
        s.vote.own = some own → (usedAxes s)[k]? = some a → (usedAxes s)[k + 1]? = none → m.relayed = false → m.phase = k →
        peerOnAxis s k ((peerCoordinate s l.val).getD (physicalOf s source.toNat)) = some q → q ∈ linePeers s a →
        (∀ p ∈ linePeers s a, receivedVote s k p = none ↔ p = q) →
        m.number = s.vote.number → m.prevNumber = s.vote.prevNumber → m.prevFoul = s.vote.prevFoul →
        ∃ t, exec (.postVote l source payload) s = .next t
          ∧ PostEnds s ((linePeers s a).foldl (fun c p => combineVotes c ((receivedVote s k p).getD m.vote))
              (s.vote.combined.getD Vote.empty)) t)
    ∧ (s.stage.phase = .voted → now s < voteDeadline s s.vote.phase → exec .voteDeadline s = .next s)
    ∧ (let k := s.vote.phase
      ∀ a own, s.stage.phase = .voted → runs s = true → s.boot.runningFirmware = true → stewardRuns s = true → s.vote.own = some own →
        voteDeadline s k ≤ now s → (usedAxes s)[k]? = some a → (usedAxes s)[k + 1]? = none →
        ∃ t, exec .voteDeadline s = .next t
          ∧ PostEnds s ((linePeers s a).foldl (fun c p => combineVotes c ((receivedVote s k p).getD (Vote.broken causeAbsent)))
              (s.vote.combined.getD Vote.empty)) t)
    ∧ (let k := s.vote.phase
      ∀ a b, s.stage.phase = .voted → s.boot.runningFirmware = true → stewardRuns s = true → voteDeadline s k ≤ now s →
        (usedAxes s)[k]? = some a → (usedAxes s)[k + 1]? = some b →
        (∃ q ∈ linePeers s b, receivedVote s (k + 1) q = none) →
        let absent := (linePeers s a).filter fun q => (receivedVote s k q).isNone
        absent ≠ [] →
        ∃ t v, exec .voteDeadline s = .next t ∧ t.vote.phase = k + 1 ∧ t.vote.combined = some v
          ∧ v.foul = true ∧ v.stop = true ∧ v.causes.getLsbD causeAbsent = true
          ∧ odGet t (od 0x2030 6) = (odGet s (od 0x2030 6) + absent.length) % 2 ^ 32
          ∧ t.vote.raised = s.vote.raised ++ absent.map fun q => (0x09, kindDevice, setAxis (coordinate s) a q, 0))

/-- The combination of votes (R298): foul and stop are ors, the extension is the larger, the causes are an or, and the
notices are the 16 lowest of both; so the order in which a device combines its peers' votes does not matter. -/
def Obligations.VotesCombine : Prop :=
  ∀ a b c : Vote,
    (combineVotes a b).foul = (a.foul || b.foul) ∧ (combineVotes a b).stop = (a.stop || b.stop)
    ∧ (combineVotes a b).ext = max a.ext b.ext ∧ (combineVotes a b).causes = a.causes ||| b.causes
    ∧ (∀ w ∈ (combineVotes a b).notices, w ∈ a.notices ∨ w ∈ b.notices)
    ∧ (∀ w, w ∈ a.notices ∨ w ∈ b.notices → w ∉ (combineVotes a b).notices →
        (combineVotes a b).notices.length = 16 ∧ ∀ x ∈ (combineVotes a b).notices, x.toNat < w.toNat)
    ∧ combineVotes a b = combineVotes b a
    ∧ combineVotes (combineVotes a b) c = combineVotes a (combineVotes b c)

/-- The start of a stage and of its rest (R24, R34, R75, R118, R130, R239, R240, R465): a due stage starts with every logical core
RUNNING at its stage-table entry, its registers, marks and waybill bits cleared and its scratchpad kept; a check error in the
entry halts the core with 0xA4; with an unfinished reload no core runs, and its cause is set; the cores of a die that a per-die reset
has taken miss the stage, with cause reset. In the rest no core issues, a core that still runs makes the vote foul, and the engines have
dropped their plan requests. The model's choices: the inboxes are emptied as the rest starts (log entry 43), and a start that is not due
changes nothing (log entry 14). -/
def Obligations.StageStarts : Prop :=
  ∀ s : State,
    let i := ((runningLeg s).schedule s.stage.number.toNat).index (deviceStep s)
    (startDue s = false → exec .stageStart s = .next s)
    ∧ (startDue s = true → ∃ t, exec .stageStart s = .next t
        ∧ t.stage.phase = .stage ∧ t.stage.start = s.stage.nextStart ∧ t.stage.index = i ∧ t.ext = s.ext ∧ t.time = s.time
        ∧ (s.stage.reloading = [] → ∀ n, n < 288 → dieMoves s (n / 144) = true →
            let c := coreOf s n
            let key := 256 * flag c.bank + i
            (8192 + key ∉ c.bankErrors →
              coreOf t n = c.beginStage (Table.look c.stageTable 0 key)
              ∧ (coreOf t n).state = .running ∧ (coreOf t n).pc = bits (Table.look c.stageTable 0 key).toNat 11 0
              ∧ (coreOf t n).regs = Regs.reset ∧ (coreOf t n).waybill = 0 ∧ (coreOf t n).written = []
              ∧ (coreOf t n).scratch = c.scratch)
            ∧ (8192 + key ∈ c.bankErrors →
              (coreOf t n).state = .halted ∧ bits (odGet t (od (0x3000 + n) 0x10)) 63 56 = 0xA4))
        ∧ (s.stage.reloading = [] → ∀ d, d < 2 → dieMoves s d = false →
            t.vote.causes.getLsbD causeReset = true ∧ d ∈ t.boot.resetDies)
        ∧ (s.stage.reloading ≠ [] → t.vote.causes.getLsbD causeUnready = true)
        ∧ ∀ n, n < 288 → s.stage.reloading ≠ [] ∨ dieMoves s (n / 144) = false →
            canIssue t n = false ∧ (coreOf t n).state ≠ .running ∧ (coreOf t n).state ≠ .atPost ∧ (coreOf t n).state ≠ .halted
            ∧ (coreOf t n).regs = (coreOf s n).regs ∧ (coreOf t n).scratch = (coreOf s n).scratch)
    ∧ (s.stage.phase = .stage → s.stage.start + s.stage.length - s.stage.rest ≤ now s →
        ∃ t, exec .restStart s = .next t ∧ t.stage.phase = .rest ∧ t.ext = s.ext
          ∧ t.vote.t0 = s.stage.start + s.stage.length - s.stage.rest
          ∧ (∀ n, n < 288 → canIssue t n = false)
          ∧ (∀ n, n < 288 → (coreOf s n).state = .running → t.vote.causes.getLsbD causeLate = true)
          ∧ (∀ g, g < 24 → (getEngine t g).waiting = [] ∧ (getEngine t g).held = [] ∧ (getEngine t g).inbox = []
              ∧ (getEngine t g).dynamic = (getEngine s g).dynamic)
          ∧ ∀ g, g < 24 → 0 < (getEngine s g).waiting.length + (getEngine s g).held.length →
              t.vote.causes.getLsbD causeLate = true)

/-- The end of a reload (R314, R138) and the resending of escalations (R322, R369): the cores that were being loaded hold the
running leg's banks, tables and regions and are IDLE, and no other core changes; once OD 4400.08 ms have passed the records that
nobody has acknowledged leave again on the enabled paths, and the queue stays. The model's choices: the leg's image stands for its homes (log entry 13), what a
reload sets as it ends (log entry 44), and a resend that is not due changes nothing (log entry 14). -/
def Obligations.ReloadsAndResends : Prop :=
  ∀ s : State, let due := s.deliveredAt + 1250000 * odGet s (od 0x4400 8)
    ((∀ n ∈ s.stage.reloading, Table.look s.boot.dieReset 0 (n / 144) = 0) →
      ∃ t, exec .reloadDone s = .next t ∧ t.stage.reloading = [] ∧ t.ext.cells = s.ext.cells
        ∧ (∀ n, n ∉ s.stage.reloading → coreOf t n = coreOf s n)
        ∧ ∀ n ∈ s.stage.reloading, (coreOf t n).state = .idle ∧ (coreOf t n).hasBank = true
            ∧ (coreOf t n).bank = (runningLeg s).activeBank n
            ∧ (coreOf t n).bundles = (runningLeg s).bundlesOf n
            ∧ (coreOf t n).stageTable = (runningLeg s).stageTablesOf n
            ∧ (coreOf t n).descriptors = (runningLeg s).descriptorsOf n
            ∧ (coreOf t n).regions = (runningLeg s).regionsOf n ∧ (coreOf t n).bankErrors = []
            ∧ (coreOf t n).regs = (coreOf s n).regs)
    ∧ (s.escalations = [] ∨ now s < due → exec .escalationResend s = .next s)
    ∧ (s.escalations ≠ [] → due ≤ now s → odGet s (od 0x4400 1) = 2 → odGet s (od 0x5800 1) ≠ 0 →
        exec .escalationResend s = .next { s with deliveredAt := now s, out := .msix (odGet s (od 0x4400 3)) :: s.out })
    ∧ (∀ r, s.escalations = [r] → due ≤ now s → odGet s (od 0x4400 1) = 1 → odGet s (od 0x4400 2) ≠ 0 → odGet s (od 0x1100 3) ≠ 0 →
        odGet s (od 0x1100 4) = 0 →
        ∃ t f, exec .escalationResend s = .next t ∧ t = { s with deliveredAt := now s, out := .frame false f :: s.out, fresh := s.fresh + 1 }
          ∧ (f.drop 30).take 40 = [1] ++ zeroBytes 7 ++ leBytes r.toNat 32)

/-- The escalation queue (R321, R322): a record takes the next sequence number and joins the queue while it holds fewer than
16; a full queue loses its oldest notice-class record, or, with none, the new record, which is counted. The queue never grows
beyond 16, and an acknowledgement removes the record of its number and every earlier one. The model's choices: a record that is lost
takes no sequence number (log entry 45), and an acknowledgement compares modulo 2^16 (log entry 52). -/
def Obligations.EscalationQueue : Prop :=
  ∀ (s : State) (cause kind unit detail : Nat),
    let t := escalate s cause kind unit detail
    let r := escalationRecord (odGet s (od 0x4400 7)) cause kind unit (deviceState s) detail (stageNumber s) (now s)
      (logicalAddress s) (coordinate s)
    (s.escalations.length < 16 → t.escalations = s.escalations ++ [r]
      ∧ odGet t (od 0x4400 7) = (odGet s (od 0x4400 7) + 1) % 2 ^ 16)
    ∧ (16 ≤ s.escalations.length → (∀ x ∈ s.escalations, recordNotice x = false) →
        t.escalations = s.escalations ∧ odGet t (od 0x4400 6) = (odGet s (od 0x4400 6) + 1) % 2 ^ 32
        ∧ odGet t (od 0x4400 7) = odGet s (od 0x4400 7))
    ∧ (16 ≤ s.escalations.length → ∀ a x b, s.escalations = a ++ x :: b → recordNotice x = true →
        (∀ y ∈ a, recordNotice y = false) → t.escalations = a ++ b ++ [r])
    ∧ (s.escalations.length ≤ 16 → t.escalations.length ≤ 16)
    ∧ t.cores = s.cores ∧ t.ext = s.ext ∧ t.links = s.links
    ∧ ∀ (rq : Requester) (v : BitVec 16), Accepted s rq (od 0x4400 5) (leBytes v.toNat 2) false 0 → rq.path ≠ .bar2 →
        ∃ u, exec (.acknowledge rq v) s = .next u
          ∧ u.escalations = s.escalations.filter (fun x => 32768 ≤ (v.toNat + 65536 - recordSeq x) % 65536)
          ∧ u = { s with escalations := u.escalations, dict := u.dict }

/-- Route time (R227, R231 to R234): a parent's beacon at a LOCKED device gives the loop's frequency term and rate, each held to
100 ppm; an accumulator at one tick announces one adjustment 256 ticks ahead; three intervals without a parent's beacon
lead to HOLDOVER with the frequency term as rate, and 128 intervals of that to UNFIT. The model's choices: the adjustment comes exactly
256 ticks ahead, of R227's at least 256 (log entry 46), and a beacon on a link that is not up changes nothing (log entry 14). -/
def Obligations.RouteTimeKept : Prop :=
  ∀ (l : LinkId) (beacon : BitVec 96) (arrival : BitVec 68) (s : State),
    (let b := readBeacon beacon.toNat
      let e := beaconOffset s l.val b arrival.toNat
      let f := clampInt (-25600) 25600 (frequency s + 16 * e)
      linkUp s l.val = true → b.master = masterAddress s → discipline s = dsLocked → parentLink s = some l.val →
      s.time.takeover = false → (odGet s (od 0x2400 4) = l.val ∨ b.state = dsLocked ∨ b.state = dsMaster) →
      ∃ t, exec (.beaconReceive l beacon arrival) s = .next t
        ∧ frequency t = f ∧ t.time.rate = clampInt (-25600) 25600 (f + 240 * e) ∧ t.time.lastBeacon = now s
        ∧ t.time.counter = s.time.counter ∧ odGet t (od 0x2400 4) = l.val
        ∧ (e.natAbs < 2 ^ 31 → odInt t (od 0x2402 (l.val + 1)) = e ∧ odInt t (od 0x2400 6) = e)
        ∧ t.cores = s.cores ∧ t.links = s.links ∧ t.ext = s.ext)
    ∧ (linkUp s l.val = false → exec (.beaconReceive l beacon arrival) s = .next s)
    ∧ (s.time.adjust = none → oneTick ≤ s.time.acc → exec .routeAdjust s
        = .next { s with time := { s.time with acc := s.time.acc - oneTick, adjust := some (now s + 256, true) } })
    ∧ (s.time.adjust = none → s.time.acc ≤ -oneTick → exec .routeAdjust s
        = .next { s with time := { s.time with acc := s.time.acc + oneTick, adjust := some (now s + 256, false) } })
    ∧ (discipline s = dsLocked → s.time.lastBeacon + 3 * 16384 ≤ now s →
        ∃ t, exec .parentBeaconTimeout s = .next t ∧ discipline t = dsHoldover ∧ t.time.rate = frequency s
          ∧ t.time.holdoverAt = now s ∧ t.time.counter = s.time.counter ∧ t = { s with time := t.time, od := t.od })
    ∧ (discipline s = dsHoldover → s.time.holdoverAt + 128 * 16384 ≤ now s →
        ∃ t, exec .holdoverExpiry s = .next t ∧ discipline t = dsUnfit ∧ t.time.counter = s.time.counter
          ∧ t = { s with time := t.time, od := t.od })

/-- Links that go down (R260 to R263, R298, Table 10.7): a DOWN, the loss of signal on both lanes, an acknowledgement timeout and an
overdue replay declare a serving link down with their causes: the count and the cause stand in its objects, the link is HELD, its plan
bales that nobody has acknowledged go to the detour, DOWN is to be sent in 64 slots, and its notice goes into the next vote. No other
link's state changes. The model's choice: a message is the command that names it, with its bale or without (log entry 25). -/
def Obligations.LinksGoDown : Prop :=
  ∀ (l : LinkId) (cause : BitVec 6) (s : State), linkUp s l.val = true →
    let k := getLink s l.val
    let down (c : Instr) (n : Nat) : Prop := ∃ t, exec c s = .next t
      ∧ linkState t l.val = lsHeld ∧ odGet t (od (linkIndex l.val) 0x19) = n
      ∧ odGet t (od (linkIndex l.val) 0x18) = (odGet s (od (linkIndex l.val) 0x18) + 1) % 2 ^ 32
      ∧ (getLink t l.val).copies = [] ∧ (getLink t l.val).replays = [] ∧ (getLink t l.val).downSlots = 64
      ∧ (getLink t l.val).downAt = now s ∧ (getLink t l.val).detours = k.detours ++ unacked k 1
      ∧ noticeWord s l.val false ∈ t.vote.notices
      ∧ t.cores = s.cores ∧ t.ext = s.ext ∧ ∀ j, j < 48 → j ≠ l.val → linkState t j = linkState s j
    down (.down l cause) 5
    ∧ down (.lossOfSignal l) 3
    ∧ ((∃ x ∈ k.copies, k.acked < x.1) → k.lastAck + 4096 ≤ now s → down (.ackTimeout l) 4)
    ∧ ((∃ r ∈ k.replays, r.slotStart + 2 * linkLatency s l.val + 344 < now s) → down (.replayOverdue l) 2)

/-- Training (R265 to R268, R271, R272, R274, R466, Tables 10.4, 10.9 and 10.10): an attempt starts from OFF or HELD where it may; while
the port die runs, PMD training on both lanes queues HELLO; a HELLO of the cabled peer with a common version queues the first ECHO, and
one of another peer marks the link miscabled and returns it to OFF, or to HELD where it came from there; an ECHO is answered; the eighth
ECHO REPLY gives the latency; READY takes the link UP where this end has sent its own, with the bales that it held to be sent first, and
is noted before that; a time limit that is over ends the attempt, and the third failure within 1 s retires the link. The model's choices:
the latency is that of the last exchange (log entry 46), a miscabled link's state (log entry 47), what is held or unacknowledged goes
ahead of the queue without a place in it (log entry 60), and a message that is not due changes nothing (log entry 14). -/
def Obligations.LinkTraining : Prop :=
  ∀ (l : LinkId) (lanes : BitVec 5) (param delay : BitVec 46) (arrival : BitVec 68) (s : State),
    let k := getLink s l.val
    (mayTrain s l.val = true → ∃ t, exec (.trainingAttempt l) s = .next t
      ∧ linkState t l.val = (if linkState s l.val = lsOff then lsTraining else lsRetraining)
      ∧ (getLink t l.val).trainStep = 1 ∧ (getLink t l.val).downSlots = k.downSlots
      ∧ (getLink t l.val).leads = decide (linkState s l.val ≠ lsOff)
      ∧ t = { s with od := t.od, links := t.links })
    ∧ (portRuns s l.val = false → exec (.pmdTrainingDone l lanes) s = .next s ∧ exec (.hello l param) s = .next s
        ∧ exec (.ready l) s = .next s)
    ∧ (training s l.val = true → portRuns s l.val = true → k.trainStep ≤ 2 → lanes.toNat % 4 = 3 → ∃ t, exec (.pmdTrainingDone l lanes) s = .next t
      ∧ odGet t (od (linkIndex l.val) 6) = lanes.toNat ∧ (getLink t l.val).trainStep = 3
      ∧ (getLink t l.val).control = k.control ++ [(1, BitVec.ofNat 46 (helloParam s l.val))]
      ∧ t = { s with od := t.od, links := t.links })
    ∧ (let peer := bits param.toNat 29 10
      let v := min (bits param.toNat 45 38) (odGet s (od 0x5300 1))
      ∀ q, training s l.val = true → portRuns s l.val = true → cabling s l.val = some q →
        (q.2 = bits param.toNat 9 4 → peerCoordinate s l.val = some peer → bits param.toNat 37 30 ≤ v →
          odGet s (od 0x5300 2) ≤ v → k.trainStep = 3 → ∃ t, exec (.hello l param) s = .next t
            ∧ odGet t (od (linkIndex l.val) 2) = peer ∧ odGet t (od (linkIndex l.val) 4) = v
            ∧ (getLink t l.val).trainStep = 4
            ∧ (getLink t l.val).control = k.control ++ [(1, BitVec.ofNat 46 (helloParam s l.val)), (5, 0)]
            ∧ linkState t l.val = linkState s l.val ∧ t = { s with od := t.od, links := t.links })
        ∧ (q.2 ≠ bits param.toNat 9 4 → ∃ t, exec (.hello l param) s = .next t
            ∧ linkState t l.val = (if linkState s l.val = lsTraining then lsOff else lsHeld)
            ∧ (linkState s l.val = lsTraining → odGet t (od (linkIndex l.val) 4) = 0) ∧ bitAt (odGet t (od 0x3A00 8)) l.val = true ∧ (getLink t l.val).trainStep = 0
            ∧ t = { s with od := t.od, links := t.links }))
    ∧ (training s l.val = true → ∃ t, exec (.echo l arrival) s = .next t ∧ t = { s with links := t.links }
      ∧ (getLink t l.val).control = k.control ++ [(6, BitVec.ofNat 46 arrival.toNat)]
      ∧ ∀ j, j ≠ l.val → getLink t j = getLink s j)
    ∧ (let lam := (arrival.toNat - k.echoSent - delay.toNat) / 2
      training s l.val = true → k.trainStep = 4 → k.echoes.length = 7 → lam ≤ 16384 →
      (∀ x ∈ k.echoes, ∀ y ∈ lam :: k.echoes, x ≤ y + 2 ∧ y ≤ x + 2) →
      ∃ t, exec (.echoReply l delay arrival) s = .next t ∧ odGet t (od 0x2403 (l.val + 1)) = lam
        ∧ odGet t (od (linkIndex l.val) 5) = 2 * ((lam + 15) / 16) + 352 ∧ (getLink t l.val).trainStep = 5
        ∧ t = { s with od := t.od, links := t.links })
    ∧ (training s l.val = true → portRuns s l.val = true → k.trainStep ≠ 7 → ∃ t, exec (.ready l) s = .next t
      ∧ getLink t l.val = { k with peerReady := true } ∧ t = { s with links := t.links })
    ∧ (training s l.val = true → portRuns s l.val = true → k.trainStep = 7 → ∃ t, exec (.ready l) s = .next t
      ∧ linkState t l.val = lsUp ∧ (getLink t l.val).again = unacked k 3 ++ (k.held ++ k.again) ∧ (getLink t l.val).dynamic = k.dynamic
      ∧ (getLink t l.val).held = [] ∧ (getLink t l.val).copies = [] ∧ (getLink t l.val).base = now s / 4
      ∧ t.cores = s.cores ∧ t.ext = s.ext)
    ∧ (attemptExpired s l.val = false → exec (.trainingTimeout l) s = .next s)
    ∧ (training s l.val = true → attemptExpired s l.val = true → (recentFailures s k).length < 2 →
      ∃ t, exec (.trainingTimeout l) s = .next t
      ∧ linkState t l.val = (if linkState s l.val = lsTraining then lsOff else lsHeld) ∧ (getLink t l.val).trainStep = 0
      ∧ (getLink t l.val).failures = recentFailures s k ++ [now s] ∧ t = { s with od := t.od, links := t.links })
    ∧ (training s l.val = true → attemptExpired s l.val = true → 2 ≤ (recentFailures s k).length →
      ∃ t, exec (.trainingTimeout l) s = .next t ∧ linkState t l.val = lsRetired ∧ t.cores = s.cores ∧ t.ext = s.ext)

/-- Upkeep of a link (R256, R261, R264, R269, R270, R458, R466): the first nak that no replay has answered is named once more; the
bad-bale count restarts with its window; at the hold's end this device's own held bales are dropped and counted; a failed lane, or a
NARROW, puts the link into one-lane operation, and the failing end sends NARROW; while the port die runs, a RETRAIN takes a serving
link down with cause 8, into RETRAINING where the device has a shape, and on a collision the lower coordinate leads. The model's
choices: the hold's end flushes again what is held later (log entry 47), and an event that is not due changes nothing (log entry 14).
-/
def Obligations.LinkUpkeep : Prop :=
  ∀ (l : LinkId) (lane : Bool) (c : BitVec 20) (s : State),
    let k := getLink s l.val
    (∀ n, k.naks.find? (fun n => n.times < 2 && n.sent + replayDelay s l.val ≤ now s) = some n →
      ∃ t, exec (.nakResend l) s = .next t ∧ t = { s with links := t.links }
        ∧ (getLink t l.val).nakNow = k.nakNow ++ [n.seq] ∧ (∀ j, j ≠ l.val → getLink t j = getLink s j)
        ∧ (getLink t l.val).naks = k.naks.map fun x => if x = n then ⟨x.seq, now s, 2⟩ else x)
    ∧ (now s % 67108864 < 4 → ∃ t, exec (.badBaleWindowEnd l) s = .next t
        ∧ odGet t (od (linkIndex l.val) 0x10) = 0 ∧ t = { s with od := t.od }
        ∧ ∀ id, id ≠ od (linkIndex l.val) 0x10 → odGet t id = odGet s id)
    ∧ ((linkState s l.val = lsHeld ∨ linkState s l.val = lsRetraining) →
        (2 ≤ k.downPosts ∨ k.downAt + 1048576 ≤ now s) → k.held ≠ [] →
        (∀ b ∈ k.held, hSrc (baleHeader b) = logicalAddress s) →
        ∃ t, exec (.holdEnd l) s = .next t ∧ (getLink t l.val).held = [] ∧ (getLink t l.val).dynamic = k.dynamic
          ∧ odGet t (od (linkIndex l.val) 0x1D) = (odGet s (od (linkIndex l.val) 0x1D) + k.held.length) % 2 ^ 32
          ∧ odGet t (od (linkIndex l.val) 0x1C) = 0 ∧ t.cores = s.cores ∧ t.ext = s.ext)
    ∧ (linkState s l.val = lsUp ∨ linkState s l.val = lsReplaying →
        (∃ t, exec (.laneFailed l lane) s = .next t ∧ linkState t l.val = lsNarrow ∧ (getLink t l.val).lane = some lane
          ∧ (getLink t l.val).control = k.control ++ [(4, BitVec.ofNat 46 (flag lane * 2 ^ 45))]
          ∧ (getLink t l.val).detours = k.detours ++ unacked k 1 ∧ t.cores = s.cores ∧ t.ext = s.ext)
        ∧ ∃ t, exec (.narrow l lane) s = .next t ∧ linkState t l.val = lsNarrow ∧ (getLink t l.val).lane = some lane
          ∧ (getLink t l.val).control = k.control ∧ t.cores = s.cores ∧ t.ext = s.ext)
    ∧ (linkUp s l.val = true → portRuns s l.val = true → ∃ t, exec (.retrain l c) s = .next t
        ∧ odGet t (od (linkIndex l.val) 0x19) = 8 ∧ t.cores = s.cores ∧ t.ext = s.ext
        ∧ (odGet s (od 0x3A00 4) = 0 → linkState t l.val = lsHeld)
        ∧ (odGet s (od 0x3A00 4) ≠ 0 → linkState t l.val = lsRetraining ∧ (getLink t l.val).trainStep = 1
            ∧ (getLink t l.val).leads = false))
    ∧ (portRuns s l.val = false → exec (.retrain l c) s = .next s)
    ∧ (linkState s l.val = lsRetraining → portRuns s l.val = true → ∃ t, exec (.retrain l c) s = .next t
        ∧ getLink t l.val = (if c.toNat < coordinate s then { k with leads := false, control := k.control.filter fun x => x.1 ≠ 2 }
          else k)
        ∧ t = { s with links := t.links })

/-- Slots and bales (R249, R251, R253, R254, R256, R261, R262, R270): a beacon slot begins a period, with its count unit and 3 to 5
idle units, and carries the beacon; an UP link with neither control nor relayed nor booked bales sends the first dynamic bale
with its slot's number and keeps a copy; a held link sends DOWN; a slot is sent once. A bale that cannot be decoded is counted and named
by a nak, and the 17th of a window takes the link down with cause 1; a good one is received and no longer named. The model's choices:
a flagged bale counts one uncorrectable codeword (log entry 28); the output that a bale is put in is the model's own list (log entries 3
and 28); a slot that is not due, or whose port die is in reset, changes nothing (log entry 14). -/
def Obligations.SlotsAndBales : Prop :=
  ∀ (l : LinkId) (seq : BitVec 12) (bale : BitVec 1280) (symbols : Nat) (arrival : BitVec 68) (s : State),
    let k := getLink s l.val
    let n := now s / 4
    let cc := idleUnits s l.val
    let slot := fullSeq (now s / 4 + 8) seq.toNat
    let bad := odGet s (od (linkIndex l.val) 0x10)
    (n < k.nextSlot ∨ portRuns s l.val = false → exec (.slotStart l) s = .next s)
    ∧ (portRuns s l.val = false → exec (.baleReceive l seq bale ⟨true, symbols⟩ arrival) s = .next s)
    ∧ (portRuns s l.val = true →
    (k.nextSlot ≤ n → linkState s l.val = lsUp → isBeacon n = true → ∃ t, exec (.slotStart l) s = .next t
        ∧ t.out = .bale l.val n (makeBale (beaconWord s l.val n) [])
            :: .units l.val n (BitVec.ofNat 32 (0x5A5A0000 + cc) :: List.replicate cc 0) :: s.out
        ∧ 3 ≤ cc ∧ cc ≤ 5 ∧ (k.lineUnits = 0 → cc = 4)
        ∧ getLink t l.val = { k with nextSlot := n + 1, lineUnits := (getLink t l.val).lineUnits }
        ∧ (k.lineUnits ≠ 0 → (getLink t l.val).lineUnits = k.lineUnits + 1281 + cc)
        ∧ t = { s with links := t.links, out := t.out } ∧ ∀ j, j ≠ l.val → getLink t j = getLink s j)
    ∧ (∀ p b rest, k.nextSlot ≤ n → linkState s l.val = lsUp → isBeacon n = false → k.control = [] → k.relays = [] →
        k.replays = [] → k.nakNow = [] → k.restarting = false → s.stage.phase = .none → k.again = [] →
        k.dynamic = (p, b) :: rest →
        bitAt (baleHeader b) 92 = false →
        ∃ t, exec (.slotStart l) s = .next t
          ∧ (let x := makeBale (stampHeader (baleHeader b) (n % 4096) (k.cumulative % 4096) none false) (balePayload b)
            t.out.head? = some (.bale l.val n x) ∧ (n % 32 ≠ 0 → t.out = .bale l.val n x :: s.out)
            ∧ (n, x) ∈ (getLink t l.val).copies)
          ∧ (getLink t l.val).dynamic = rest ∧ (getLink t l.val).nextSlot = n + 1
          ∧ (∀ j, j ≠ l.val → getLink t j = getLink s j) ∧ t.cores = s.cores ∧ t.ext = s.ext)
    ∧ (k.nextSlot ≤ n → linkState s l.val = lsHeld → 0 < k.downSlots →
        ∃ t, exec (.slotStart l) s = .next t ∧ (getLink t l.val).downSlots = k.downSlots - 1
          ∧ t = { s with links := t.links, out := t.out } ∧ t.out.length = s.out.length + if n % 32 = 0 then 2 else 1)
    ∧ (linkState s l.val = lsUp → isBeacon slot = false → bad < 16 →
        ∃ t, exec (.baleReceive l seq bale ⟨true, symbols⟩ arrival) s = .next t
          ∧ odGet t (od (linkIndex l.val) 0x10) = bad + 1
          ∧ odGet t (od (linkIndex l.val) 0x12) = (odGet s (od (linkIndex l.val) 0x12) + symbols) % 2 ^ odBits (od (linkIndex l.val) 0x12)
          ∧ odGet t (od (linkIndex l.val) 0x13) = (odGet s (od (linkIndex l.val) 0x13) + 1) % 2 ^ 32
          ∧ linkState t l.val = lsReplaying ∧ (getLink t l.val).nakNow = k.nakNow ++ [slot]
          ∧ (getLink t l.val).naks = k.naks ++ [⟨slot, now s, 1⟩] ∧ t = { s with od := t.od, links := t.links })
    ∧ (linkState s l.val = lsUp → isBeacon slot = false → bad = 16 →
        ∃ t, exec (.baleReceive l seq bale ⟨true, symbols⟩ arrival) s = .next t ∧ linkState t l.val = lsHeld
          ∧ odGet t (od (linkIndex l.val) 0x19) = 1 ∧ t.cores = s.cores ∧ t.ext = s.ext)
    ∧ (∀ b corrected, linkUp s l.val = true → isBeacon slot = false → decodeBale bale false false = some (b, corrected) →
        hReplay (baleHeader b) = false → hClass (baleHeader b) = 0 →
        ∃ t, exec (.baleReceive l seq bale ⟨false, symbols⟩ arrival) s = .next t
          ∧ Table.look (getLink t l.val).received false slot = true ∧ slot ∉ (getLink t l.val).nakNow
          ∧ (∀ x ∈ (getLink t l.val).naks, x.seq ≠ slot) ∧ t = { s with od := t.od, links := t.links }))

/-- The dynamic class (R161, R192, R195, R264, R292, R294, R295, R346, R464): an acknowledgement opens the window, and an echo halves it;
an acknowledgement that is due leaves in a bale of its own; a completion with an error reaches the requester that its tag names, and one
of an earlier fabric copy nobody; a page-copy bale inside the engine's window and a fabric-copy bale inside its windows are written, where
nothing at their interfaces goes first, and a page's count knows which of its bales have come; 131,072 ticks after a switch the old
routing table goes. The model's choices: an access waits in a list of its own (log entry 60), and an expiry that is not due changes
nothing (log entry 14). -/
def Obligations.DynamicBales : Prop :=
  ∀ (l : LinkId) (src : BitVec 20) (g : EngineId) (header : BitVec 64) (tag : BitVec 24) (status : Byte) (a : BitVec 48)
    (b : BitVec 64) (data : BitVec 1024) (s : State),
    let w := getWindow s src.toNat
    let ack := bits header.toNat 47 32
    let oldest := (w.nextSeq.toNat + 65536 - w.unacked % 65536) % 65536
    (∀ m, m ≤ w.unacked → (ack + 1 + 65536 - oldest) % 65536 = m → w.waiting = [] → s.host.copyTo = none →
      (∃ t, exec (.acknowledgementOnly l src true header) s = .next t
        ∧ getWindow t src.toNat = { w with unacked := w.unacked - m, limit := max 4 (w.limit / 2), sinceEcho := 0 }
        ∧ odGet t (od 0x3905 2) = (odGet s (od 0x3905 2) + 1) % 2 ^ 32 ∧ t = { s with od := t.od, fabric := t.fabric })
      ∧ (∃ t, exec (.acknowledgementOnly l src false header) s = .next t ∧ t = { s with fabric := t.fabric }
        ∧ getWindow t src.toNat = (if 64 ≤ w.sinceEcho + m then
            { w with unacked := w.unacked - m, limit := min 64 (w.limit + 8), sinceEcho := w.sinceEcho + m - 64 }
          else { w with unacked := w.unacked - m, sinceEcho := w.sinceEcho + m })
        ∧ ∀ d, d ≠ src.toNat → getWindow t d = getWindow s d))
    ∧ (∀ due, w.ackDue = some due → (now s < due → exec (.ackOnlyTimer src) s = .next s)
        ∧ (due ≤ now s → ∃ t, exec (.ackOnlyTimer src) s = .next t
          ∧ getWindow t src.toNat = { w with ackDue := none, echoDue := false } ∧ t.cores = s.cores ∧ t.ext = s.ext))
    ∧ (exec (.completion src tag 0) s = .next s)
    ∧ (∀ d rest, status ≠ 0 → tag.toNat / 65536 = fromEngine g.val → (getEngine s g.val).dynamic = d :: rest →
        ∃ t, exec (.completion src tag status) s = .next t ∧ t = { s with engines := t.engines }
          ∧ (getEngine t g.val).dynamic = { d with
              worst := max d.worst status.toNat
              sent := d.sent.map fun x => if x.1 = tag.toNat then (x.1, max x.2 status.toNat) else x } :: rest)
    ∧ (status ≠ 0 → tag.toNat / 65536 = fromHost → tag.toNat ≠ s.host.copyTag → exec (.completion src tag status) s = .next s)
    ∧ (∀ d, status ≠ 0 → tag.toNat / 65536 = fromHost → tag.toNat = s.host.copyTag → s.host.copyTo = some d →
        ∃ t, exec (.completion src tag status) s = .next t ∧ t.host.copyTo = none
          ∧ odGet t (od 0x5880 6) = (if status.toNat < 0x10 then 0x02 else status.toNat) ∧ t.cores = s.cores ∧ t.ext = s.ext)
    ∧ (let page := a.toNat / 65536
      let refused := pageRefused s g.val (65536 * page) 65536
      let bale := a.toNat % 65536 / 128
      let before := Table.look (getEngine s g.val).incoming 0 page
      let mask := if before.testBit bale then 2 ^ bale else before + 2 ^ bale
      let waits := accessWaits s s.ext.waiting (ifacesOf s a.toNat 128)
      (waits = true → isOwn s src.toNat = false → exec (.kvPageCopyBale g src tag a data) s = .next { s with ext := { s.ext with
          waiting := s.ext.waiting ++ [.pageBale g.val src.toNat tag.toNat a.toNat (leBytes data.toNat 128)] } })
      ∧ (waits = false → a.toNat % 128 = 0 → refused = false → odGet s (od (engineIndex g.val) 2) = 1 →
        ∃ t, exec (.kvPageCopyBale g src tag a data) s = .next t ∧ t.cores = s.cores
          ∧ t.ext = (extWrite s a.toNat (leBytes data.toNat 128)).ext ∧ (isOwn s src.toNat = false → t.fabric = s.fabric
            ∧ Table.look (getEngine t g.val).incoming 0 page
              = if mask = 2 ^ 512 - 1 then 0 else mask))
      ∧ (waits = false → refused = true → ∃ t, exec (.kvPageCopyBale g src tag a data) s = .next t ∧ t.cores = s.cores ∧ t.ext = s.ext))
    ∧ (accessWaits s s.ext.waiting (ifacesOf s b.toNat 128) = false → b.toNat % 128 = 0 → inLpWindow s b.toNat 128 = true → touchesWaystations s b.toNat 128 = false →
        touchesGreen s b.toNat 128 = false → sealedAt s b.toNat 128 = none →
        ∃ t, exec (.hostTraffic src tag b data) s = .next t
          ∧ t.ext = (extWrite s b.toNat (leBytes data.toNat 128)).ext ∧ t.cores = s.cores
          ∧ (isOwn s src.toNat = false → t.fabric = s.fabric))
    ∧ (s.fabric.old ≠ [] → now s < odGet s (od 0x3900 5) → exec .oldEpochExpire s = .next s)
    ∧ (s.fabric.old ≠ [] → odGet s (od 0x3900 5) ≤ now s → ∃ t, exec .oldEpochExpire s = .next t ∧ t.fabric.old = []
        ∧ t.fabric.current = s.fabric.current ∧ t.cores = s.cores ∧ t.ext = s.ext)

/-- The rounds of a start (R106, R297, R325, R326, R349, R350, Table 13.6): a PREPARE of a new number is taken with the device's own
status; one that it can follow gives it the leg's slot and epoch 0, and one that it can't leaves an earlier prepared start as it was; an
old number does nothing; an ACK of a child is entered; GO before T_s arms the first stage, with the causes that have arisen since the
last vote, and later it discards; ABORT and 60 ms without either discard, an earlier prepared start too; at the deadline the device
answers, and the starter ends its rounds with an absent child's status. The model's choice: a discard or a deadline that is not due
changes nothing (log entry 14). -/
def Obligations.StartRounds : Prop :=
  ∀ (src : BitVec 20) (m : StartMsg) (s : State),
    let u := s.start
    (m.number.toNat ≤ odGet s (od 0x4420 1) → exec (.prepare src m) s = .next s)
    ∧ (odGet s (od 0x4420 1) < m.number.toNat → logicalAddress s < 2 ^ 20 → ∃ t, exec (.prepare src m) s = .next t
        ∧ t.start.msg = some m ∧ t.start.parent = some src.toNat ∧ t.start.ownStatus = prepareStatus s m
        ∧ odGet t (od 0x4420 1) = m.number.toNat
        ∧ (prepareStatus s m = 0 → odGet t (od 0x2000 1) = m.slot.val ∧ odGet t (od 0x4420 2) = 1
            ∧ odGet t (od 0x3900 1) = 0 ∧ odGet t (od 0x2040 1) = 0)
        ∧ (prepareStatus s m ≠ 0 → t.cores = s.cores ∧ t.stage = s.stage)
        ∧ (prepareStatus s m ≠ 0 → ∀ p, u.msg = some p → u.ownStatus = 0 → t.start.kept = some ⟨p, u.children, u.discardAt⟩))
    ∧ (∀ k, u.kept = some k → k.msg.number = m.number → (∀ p, u.msg = some p → p.number ≠ m.number) →
        (deviceState s ≠ stFaulted → now s < m.startAt.toNat → ∃ t, exec (.go src m) s = .next t ∧ t.stage.phase = .armed
          ∧ t.stage.number = m.stage ∧ t.stage.nextStart = m.startAt.toNat ∧ t.start.msg = none ∧ t.start.kept = none)
        ∧ ∃ t, exec (.abort src m) s = .next t ∧ t.start.kept = none ∧ t.start.msg = u.msg ∧ t.stage = s.stage
          ∧ odGet t (od 0x4420 2) = 3 ∧ (deviceState s = stStopped → deviceState t = stReady))
    ∧ (∀ p, u.msg = some p → u.deadline ≠ 0 → p.number = m.number → src.toNat ∈ u.children →
        (∀ x ∈ u.answered, x.1 ≠ src.toNat) → u.answered.length + 1 < u.children.length → exec (.ack src m) s
          = .next { s with start := { u with
              answered := u.answered ++ [(src.toNat, m.status, m.failing.toNat)]
              notices := unionNotices u.notices m.notices } })
    ∧ (∀ p, u.msg = some p → p.number = m.number → u.ownStatus = 0 → deviceState s ≠ stFaulted → now s < m.startAt.toNat →
        ∃ t, exec (.go src m) s = .next t ∧ t.stage.phase = .armed ∧ t.stage.number = m.stage
          ∧ t.stage.nextStart = m.startAt.toNat ∧ t.stage.firstRun = true ∧ t.start.msg = none
          ∧ odGet t (od 0x4420 2) = 2 ∧ odGet t (od 0x4401 2) = 0 ∧ odGet t (od 0x2040 1) = 0 ∧ odGet t (od 0x3900 1) = 0
          ∧ t.fabric.downSet = m.notices ∧ t.vote.causes = s.vote.causes ||| standingCauses s ∧ t.cores = s.cores ∧ t.ext = s.ext)
    ∧ (∀ p, u.msg = some p → p.number = m.number → deviceState s = stFaulted →
        ∃ t, exec (.go src m) s = .next t ∧ t.start.msg = none ∧ t.stage = s.stage ∧ deviceState t = stFaulted)
    ∧ (∀ p, u.msg = some p → p.number = m.number → m.startAt.toNat ≤ now s →
        ∃ t, exec (.go src m) s = .next t ∧ t.start.msg = none ∧ t.stage = s.stage)
    ∧ (∀ p, u.msg = some p → p.number = m.number →
        ∃ t, exec (.abort src m) s = .next t ∧ t.start.msg = none ∧ t.stage = s.stage ∧ t.cores = s.cores
          ∧ (u.ownStatus = 0 → odGet t (od 0x4420 2) = 3 ∧ (deviceState s = stStopped → deviceState t = stReady)))
    ∧ (∀ p, u.msg = some p → u.deadline ≠ 0 → u.deadline ≤ now s → ∃ t, exec .ackDeadline s = .next t
        ∧ t.start.deadline = 0 ∧ t.cores = s.cores
        ∧ (u.parent ≠ none → t.start.msg = some p ∧ t.stage = s.stage)
        ∧ (u.parent = none → (mergedStatus s).1 = 0 → deviceState s ≠ stFaulted → now s < 2 ^ 63 →
            t.stage.phase = .armed ∧ t.stage.nextStart = goTime s ∧ odGet t (od 0x5870 8) = goTime s)
        ∧ (u.parent = none → (mergedStatus s).1 ≠ 0 → t.stage = s.stage ∧ odGet t (od 0x4420 2) = 3)
        ∧ (u.parent = none → t.start.msg = none ∧ odGet t (od 0x5870 7) = (mergedStatus s).1 % 256
            ∧ odGet t (od 0x5870 9) = (mergedStatus s).2 % 2 ^ 32))
    ∧ (∀ p, u.msg = some p → u.discardAt ≤ now s → ∃ t, exec .prepareDiscard s = .next t ∧ t.start.msg = none
        ∧ t.stage = s.stage ∧ t.cores = s.cores ∧ (u.ownStatus = 0 → odGet t (od 0x4420 2) = 3))
    ∧ (∀ k, u.kept = some k → k.discardAt ≤ now s → ∃ t, exec .prepareDiscard s = .next t ∧ t.start.kept = none
        ∧ t.stage = s.stage ∧ t.cores = s.cores ∧ odGet t (od 0x4420 2) = 3 ∧ (deviceState s = stStopped → deviceState t = stReady))
    ∧ (now s < u.discardAt → (∀ k, u.kept = some k → now s < k.discardAt) → exec .prepareDiscard s = .next s)

/-- Starting, stopping and the shape (R276, R324, R348, R350, R352, R458): the start command of a number that is not greater ends with
status 0x03; one of a device alone in its domain, which can follow it, arms the stage that it names at the first T_s; the stop request
stands until the next vote; a substitution puts its count and its list in their objects; an object of the domain shape takes its value.
The model's choices: a start of too low a number ends at once (log entry 49), and an event that is not due changes nothing (log entry
14). -/
def Obligations.StartsStopsAndShape : Prop :=
  ∀ (rq : Requester) (v : Byte) (b : Bytes) (index : BitVec 16) (sub : BitVec 8) (slot : SlotId) (s : State),
    let id := od index.toNat sub.toNat
    (Accepted s rq (od 0x5870 6) [1] false 0 → odGet s (od 0x5870 1) ≤ odGet s (od 0x4420 1) →
      ∃ t, exec (.startCommand rq 1) s = .next t ∧ odGet t (od 0x5870 7) = 3
        ∧ odGet t (od 0x5870 9) = coordinate s % 2 ^ 32 ∧ t.stage = s.stage ∧ t.start = s.start ∧ t.cores = s.cores)
    ∧ (Accepted s rq (od 0x5870 6) [1] false 0 → odGet s (od 0x4420 1) < odGet s (od 0x5870 1) →
        odGet s (od 0x5870 2) = slot.val → usedAxes s = [] → prepareStatus s (startMessage s slot) = 0 → now s < 2 ^ 63 →
        ∃ t, exec (.startCommand rq 1) s = .next t ∧ t.stage.phase = .armed
          ∧ t.stage.number = BitVec.ofNat 64 (odGet s (od 0x5870 3)) ∧ t.stage.nextStart = goTime s
          ∧ odGet t (od 0x5870 7) = 0 ∧ odGet t (od 0x5870 8) = goTime s ∧ odGet t (od 0x2000 1) = slot.val
          ∧ odGet t (od 0x4420 2) = 2)
    ∧ (Accepted s rq (od 0x5800 5) [v] false 0 → ∃ t, exec (.stopRequest rq v) s = .next t
        ∧ odGet t (od 0x5800 5) = v.toNat ∧ t = { s with od := t.od, dict := t.dict })
    ∧ (let s1 := ownWrite s rq (od 0x3A00 6) [BitVec.ofNat 8 (b.length / 4)] false
      Accepted s rq (od 0x3A00 6) [BitVec.ofNat 8 (b.length / 4)] false 0 → Accepted s1 rq (od 0x3A00 7) b true 0 →
      ∃ t, exec (.substitution rq b) s = .next t ∧ odGetBytes t (od 0x3A00 7) = b
        ∧ odGet t (od 0x3A00 6) = b.length / 4 ∧ t.cores = s.cores ∧ t.ext = s.ext)
    ∧ (isShape id = true → id ≠ od 0x3A00 7 → Accepted s rq id b false 0 →
        ∃ t, exec (.shapeWrite rq index sub b) s = .next t ∧ odGet t id = maskReserved id (leNat b)
          ∧ t.cores = s.cores ∧ t.ext = s.ext
          ∧ (linksBegun s = true → odGet s id ≠ maskReserved id (leNat b) → id ≠ od 0x3A00 1 → odGet t (od 0x3A00 8) = 0))
    ∧ (id = od 0x3A00 7 → Accepted s rq id b true 0 →
        ∃ t, exec (.shapeWrite rq index sub b) s = .next t ∧ odGetBytes t id = b ∧ t.cores = s.cores ∧ t.ext = s.ext)
    ∧ (isShape id = false → exec (.shapeWrite rq index sub b) s = .next s)

/-- Intake points and log copies (R340, R341, R353): on a first run a due point enters in the intake record what it took — the
host-release counter of an outbound waystation, or the run of posted headers, past which its cursor moves; a re-run changes neither
record nor cursors, and external memory changes only where the core's fill region is green; a completed log copy leaves the list of
copies, and the released-through value goes on to the oldest slot whose copy is still incomplete, at most to the cursor. The model's
choices: a list is delivered within its event (log entry 26), and an event that is not due changes nothing (log entry 14). -/
def Obligations.IntakeAndLog : Prop :=
  ∀ (i : Fin 16) (p : IntakePoint) (ws : WsId) (s : State),
    let q := recordCursorOf s p.ws
    let hs := (takeHeaders s p.ws q p.most).2
    let dark : Prop := ∀ x r, (coreOf s p.core).regionAt x 64 = some r → r.mode ≠ .green
    (((runningLeg s).intakePoints s.stage.index).find? (fun p => p.number = i.val) = some p → s.stage.phase = .stage →
      s.stage.unready = false →
      s.stage.start + p.offset ≤ now s → s.host.served.contains i.val = false → p.ws < 48 →
      (s.stage.firstRun = true → wsKind s p.ws = 2 → ∃ t, exec (.intakePoint i) s = .next t
        ∧ t.host.intake = s.host.intake
            ++ [⟨p.number, p.ws, odGet s (od (wsIndex p.ws) 2), [], BitVec.ofNat 32 (hostRelease s p.ws)⟩]
        ∧ odGet t (od (wsIndex p.ws) 4) = hostRelease s p.ws ∧ t.host.served = p.number :: s.host.served
        ∧ (dark → t.ext = s.ext))
      ∧ (s.stage.firstRun = true → wsKind s p.ws ≠ 2 → odGet s (od 0x5850 1) = 0 → ∃ t, exec (.intakePoint i) s = .next t
        ∧ t.host.intake = s.host.intake ++ [⟨p.number, p.ws, q, hs, 0⟩]
        ∧ recordCursorOf t p.ws = (q + hs.length) % 2 ^ 32 ∧ hs.length ≤ p.most
        ∧ ∀ j h, hs[j]? = some h → postedAs h.toNat (q + j) = true)
      ∧ (∀ r, s.stage.firstRun = false → s.host.intake.find? (fun r => r.point = p.number) = some r →
        ∃ t, exec (.intakePoint i) s = .next t ∧ t.host.intake = s.host.intake ∧ t.host.recordCursor = s.host.recordCursor
          ∧ (dark → t.ext = s.ext)))
    ∧ (s.stage.phase ≠ .stage ∨ s.stage.unready = true → exec (.intakePoint i) s = .next s)
    ∧ (let rest := (Table.look s.host.copying [] ws.val).tail
      let s1 := { s with host := { s.host with copying := Table.put s.host.copying [] ws.val rest } }
      let free := releasable s1 ws.val (odGet s (od (wsIndex ws.val) 2))
      wsKind s ws.val = 1 → odGet s (od (wsIndex ws.val) 3) ≠ free →
        ∃ t, exec (.logCopyDone ws) s = .next t ∧ Table.look t.host.copying [] ws.val = rest
          ∧ odGet t (od (wsIndex ws.val) 3) = free % 2 ^ 32
          ∧ odGet t (od (wsIndex ws.val) 2) = odGet s (od (wsIndex ws.val) 2) ∧ t.cores = s.cores)

/-- Host accesses (R146, R161, R163, R167, R335, R389, R451, R464): an access through a window that does not exist in the attach mode
does nothing; one whose interfaces something else goes first at, or whose die does not run, waits; a write inside a line of mapped memory
is applied, but ends with an error status on green pages and is dropped on a sealed range, which is counted; a read returns the data, all
ones where it is unmapped, a back range, or firmware does not run, and poison or a completer abort, never data, where a line is
uncorrectable. The model's choices: an access waits in a list of its own (log entry 60), and what BAR0 holds at a host's write (log entry
33). -/
def Obligations.HostAccesses : Prop :=
  ∀ (w : HostWindow) (o n a : Nat) (b : Bytes) (s : State),
    (windowReachable w s = false → exec (.hostWrite w o b) s = .next s ∧ exec (.hostRead w o n) s = .next s)
    ∧ (windowReachable w s = true → s.boot.runningFirmware = true → w ≠ .bar0 →
        (hostTarget s w o b.length = some a → b ≠ [] → a % 64 + b.length ≤ 64 →
            accessWaits s s.ext.waiting (ifacesOf s a b.length) = true → ∃ t, exec (.hostWrite w o b) s = .next t
            ∧ t.ext = { s.ext with waiting := s.ext.waiting ++ [.hostWrite a b] } ∧ t.cores = s.cores ∧ t.out = s.out)
        ∧ (hostTarget s w o b.length = some a → b ≠ [] → a % 64 + b.length ≤ 64 →
            accessWaits s s.ext.waiting (ifacesOf s a b.length) = false → ∃ t, exec (.hostWrite w o b) s = .next t
          ∧ t.cores = s.cores
          ∧ (touchesGreen s a b.length = true → t.ext = s.ext ∧ t.od = s.od ∧ t.out = .hostWriteError :: s.out)
          ∧ (touchesGreen s a b.length = false → t.out = s.out)
          ∧ (touchesGreen s a b.length = false → (sealedAt s a b.length).isSome → t.ext = s.ext
              ∧ odGet t (od 0x5120 0x0A) = (odGet s (od 0x5120 0x0A) + 1) % 2 ^ 32)
          ∧ (touchesGreen s a b.length = false → sealedAt s a b.length = none → t.ext = (extWrite s a b).ext ∧ t.od = s.od))
        ∧ (hostTarget s w o n = none → exec (.hostRead w o n) s
            = .next { s with out := .hostData (List.replicate n 0xFF) :: s.out })
        ∧ (hostTarget s w o n = some a → accessWaits s s.ext.waiting (ifacesOf s a n) = false → touchesBack s a n = true →
            exec (.hostRead w o n) s = .next { s with out := .hostData (List.replicate n 0xFF) :: s.out })
        ∧ (hostTarget s w o n = some a → accessWaits s s.ext.waiting (ifacesOf s a n) = true → ∃ t, exec (.hostRead w o n) s = .next t
            ∧ t.ext = { s.ext with waiting := s.ext.waiting ++ [.hostRead w a n] } ∧ t.cores = s.cores ∧ t.out = s.out)
        ∧ (hostTarget s w o n = some a → accessWaits s s.ext.waiting (ifacesOf s a n) = false → touchesBack s a n = false →
            firstBad s a n = none → ∃ t, exec (.hostRead w o n) s = .next t
            ∧ t.out = .hostData (readExt s a n) :: s.out ∧ t.ext = s.ext ∧ t.cores = s.cores ∧ t.od = s.od)
        ∧ (∀ line, hostTarget s w o n = some a → accessWaits s s.ext.waiting (ifacesOf s a n) = false → touchesBack s a n = false →
            firstBad s a n = some line → ∃ t, exec (.hostRead w o n) s = .next t
            ∧ t.out.head? = some (if w = .bar4 then .hostAbort else .hostPoison) ∧ t.vote.causes = s.vote.causes
            ∧ t.ext.cells = s.ext.cells ∧ t.cores = s.cores))
    ∧ (windowReachable w s = true → s.boot.runningFirmware = false → exec (.hostRead w o n) s
        = .next { s with out := .hostData (List.replicate n 0xFF) :: s.out })
    ∧ (attachMode s ≠ 0 → s.boot.runningFirmware = true → o + b.length ≤ 0x400 → ∃ t, exec (.hostWrite .bar0 o b) s = .next t
        ∧ t.host = { s.host with msixTable := Memory.write s.host.msixTable 0 o b } ∧ t.ext = s.ext ∧ t.od = s.od)

/-- The host port (R331, R333, R345, R451): a reset of the port clears its registers and the objects of OD 5808 and is counted, and all
but a Function Level Reset leave it without link; PERST_N low does the same; it trains while PERST_N is high and Q0's PLL is locked;
events within a source's 1 ms raise one more message at its end. Nothing else of the device changes. The model's choices: PERST_N low
is not counted in OD 5800.04 (log entry 51), and an event that is not due changes nothing (log entry 14). -/
def Obligations.HostPort : Prop :=
  ∀ (kind : HostReset) (cxl : Bool) (width rate : BitVec 8) (source : Fin 54) (s : State),
    (attachMode s ≠ 0 → ∃ t, exec (.hostPortReset kind) s = .next t ∧ t = { s with od := t.od, host := t.host }
      ∧ odGet t (od 0x5800 4) = (odGet s (od 0x5800 4) + 1) % 2 ^ 32
      ∧ attachMode t = (if kind = .flr then attachMode s else 0)
      ∧ t.host = { s.host with msixTable := [], component := [] }
      ∧ ∀ i, 1 ≤ i → i ≤ 4 → odGet t (od 0x5808 i) = objDefault (od 0x5808 i))
    ∧ (exec (.perst true) s = .next { s with pins := { s.pins with perstN := true } })
    ∧ (∃ t, exec (.perst false) s = .next t ∧ t = { s with od := t.od, host := t.host, pins := t.pins }
        ∧ t.pins = { s.pins with perstN := false } ∧ attachMode t = 0 ∧ retriesConfiguration t = false
        ∧ t.host = { s.host with msixTable := [], component := [] })
    ∧ (s.pins.perstN = true → bitAt (odGet s (od 0x2420 1)) 2 = true →
        ∃ t, exec (.hostPortTrained cxl width rate) s = .next t ∧ attachMode t = (if cxl then 1 else 2)
          ∧ odGet t (od 0x5800 2) = width.toNat ∧ odGet t (od 0x5800 3) = rate.toNat ∧ t = { s with od := t.od }
          ∧ retriesConfiguration t = !s.boot.runningFirmware)
    ∧ (s.pins.perstN = false → exec (.hostPortTrained cxl width rate) s = .next s)
    ∧ (Table.look s.host.windowEnd 0 source.val ≠ 0 → Table.look s.host.windowEnd 0 source.val ≤ now s → attachMode s ≠ 0 →
        ∃ t, exec (.interruptCoalesceEnd source) s = .next t ∧ Table.look t.host.windowEnd 0 source.val = 0
          ∧ t = { s with host := t.host, out := t.out }
          ∧ t.out = (if Table.look s.host.more false source.val then .msix (sourceVector s source.val) :: s.out else s.out))
    ∧ (now s < Table.look s.host.windowEnd 0 source.val → exec (.interruptCoalesceEnd source) s = .next s)

/-- Legs and fabric copies (R346, R347, R477, Table 19.7): a load makes the checks of Table 19.6: a leg that passes is installed with
the load's end, one that a check refuses shows the check, and no leg changes before that end; a slot is unloaded where nothing runs or
names it; a fabric copy sends its bales to the destination's window, and one of no bytes to an idle window is done at once. The model's
choices: a copy of no bytes ends at once (log entry 29), a load runs with status 0x03 until its end (log entry 50), and an end with
nothing running changes nothing (log entry 14). -/
def Obligations.LegsAndCopies : Prop :=
  ∀ (rq : Requester) (l : Leg) (s : State),
    let slot := odGet s (od 0x5860 1)
    let a := odGet s (od 0x5860 2)
    let n := odGet s (od 0x5860 3)
    (Accepted s rq (od 0x5860 4) [1] false 0 → ¬ (runs s = true ∧ runningSlot s = slot) → startPrepared s = false →
      s.host.loading = none →
      readImage s a n = some l → firstBad s a n = none →
      ∃ t, exec (.load rq) s = .next t ∧ t.legs = s.legs ∧ t.ext = s.ext ∧ t.stage = s.stage
        ∧ (match l.failure s slot with
          | none => t.host.loading = some (slot, l) ∧ odGet t (od 0x5860 5) = 3 ∧ t.cores = s.cores
          | some d => t.host.loading = none ∧ odGet t (od 0x5860 5) = 1 ∧ odGet t (od 0x5860 6) = d % 65536))
    ∧ (Accepted s rq (od 0x5860 4) [2] false 0 → ¬ (runs s = true ∧ runningSlot s = slot) →
        slotReferenced s slot = false → ∃ t, exec (.unload rq) s = .next t ∧ getLeg t slot = Leg.reset
          ∧ (∀ k, k ≠ slot → getLeg t k = getLeg s k) ∧ bitAt (odGet t (od 0x2000 2)) slot = false
          ∧ odGet t (od 0x5860 5) = 0 ∧ t.cores = s.cores ∧ t.ext.cells = s.ext.cells)
    ∧ (∀ k : SlotId, s.host.loading = some (k.val, l) → ∃ t, exec .loadDone s = .next t ∧ getLeg t k.val = l
        ∧ (∀ j, j ≠ k.val → getLeg t j = getLeg s j) ∧ bitAt (odGet t (od 0x2000 2)) k.val = true
        ∧ odGet t (od 0x5860 5) = 0 ∧ odGet t (od 0x2100 2) = (odGet s (od 0x2100 2) + 1) % 2 ^ 32
        ∧ t.host.loading = none ∧ t.cores = s.cores)
    ∧ (s.host.loading = none → exec .loadDone s = .next s)
    ∧ (let dev := odGet s (od 0x5880 3)
      let w := getWindow s dev
      let tag := fromHost * 65536 + s.fabric.nextTag.toNat % 65536
      Accepted s rq (od 0x5880 5) [1] false 0 →
      (odGet s (od 0x5880 2) = 0 → windowIdle s dev = true → ∃ t, exec (.fabricCopy rq 1) s = .next t
        ∧ t.host.copyTo = none ∧ odGet t (od 0x5880 6) = 0 ∧ t.ext = s.ext ∧ t.cores = s.cores)
      ∧ (odGet s (od 0x5880 2) = 128 → firstBad s (odGet s (od 0x5880 1)) 128 = none → w.limit ≤ w.unacked →
        ∃ t, exec (.fabricCopy rq 1) s = .next t ∧ t.host.copyTo = some dev ∧ t.host.copyTag = tag ∧ odGet t (od 0x5880 6) = 1
          ∧ t.ext = s.ext ∧ t.cores = s.cores
          ∧ (getWindow t dev).waiting = w.waiting ++ [makeBale (dynamicHeader (epochBit s) dev (logicalAddress s) false false 4)
              (dynamicPayload 0 0 136 tag
                (leBytes (odGet s (od 0x5880 4)) 8 ++ readExt s (odGet s (od 0x5880 1)) 128))]))

/-- Reads of the dictionary (R359, R367, R368, R371, R372): a served scalar is answered with its bytes, a STR or DOMAIN with its
length; a missing object gets 0x02 and one that the state does not serve 0x0D; segment 0 takes a snapshot of which at most 4 are kept,
and a later segment comes from it; Discover gives identity, state and place; an aligned BAR2 read of 4 or 8 bytes gives the object's 64
bits, and one that is not aligned, has another length, finds no object or is not served all ones. A path that nothing serves answers
nothing. The model's choices: a request on a path that nothing serves is lost (log entry 38), and a BAR2 access of a bad size or
alignment shows 0x06 (log entry 52). -/
def Obligations.DictionaryReads : Prop :=
  ∀ (rq : Requester) (tr : BitVec 32) (index k req : BitVec 16) (sub : BitVec 8) (o n : Nat) (s : State),
    let id := od index.toNat sub.toNat
    let size := if rq.path = .fabric then 120 else 1024
    let reply (op : Nat) (last : Bool) (st seg : Nat) (b : Bytes) (t : State) : State :=
      answer t rq [] tr.toNat ⟨op, last, id, st, seg, b⟩
    (serverAlive s rq.path = false → exec (.read rq tr index sub) s = .next s
      ∧ exec (.segmentRead rq tr index sub k) s = .next s ∧ exec (.discover rq tr) s = .next s)
    ∧ (serverAlive s rq.path = true →
      (objRow id = none → exec (.read rq tr index sub) s = .next (reply 2 false 0x02 0 [] s))
      ∧ (∀ r, objRow id = some r → objServed s id = false → exec (.read rq tr index sub) s = .next (reply 2 false 0x0D 0 [] s))
      ∧ (∀ r, objRow id = some r → objServed s id = true →
        (r.type.long = false → exec (.read rq tr index sub) s = .next (reply 2 false 0 0 (leBytes (odRead s r id) r.type.bytes) s))
        ∧ (r.type.long = true → let b := odReadBytes s r id
          exec (.read rq tr index sub) s = .next (reply 2 false 0 0 (leBytes b.length 4) s)
          ∧ (∃ x, exec (.segmentRead rq tr index sub 0) s
              = .next (reply 6 (decide (b.length ≤ size)) 0 0 (b.take size) { s with dict := { s.dict with snapshots := x } })
            ∧ ⟨rq, tr, id, b, now s⟩ ∈ x ∧ x.length ≤ 4)
          ∧ (∀ x : Snapshot, s.dict.snapshots = [x] → x.requester = rq → x.transaction = tr → x.id = id →
              now s ≤ x.last + segmentGap → k ≠ 0 → size * k.toNat < x.bytes.length →
              exec (.segmentRead rq tr index sub k) s
                = .next (reply 6 (decide (x.bytes.length ≤ size * (k.toNat + 1))) 0 k.toNat ((x.bytes.drop (size * k.toNat)).take size)
                    { s with dict := { s.dict with snapshots := [{ x with last := now s }] } }))))
      ∧ exec (.discover rq tr) s = .next (answer s rq [] tr.toNat ⟨0x0B, false, 0, 0, 0,
          leBytes (odGet s (od 0x1000 1)) 4 ++ [s.fuses.orderingCode, s.fuses.stepping, BitVec.ofNat 8 (deviceState s), 0]
            ++ leBytes s.fuses.serial.toNat 8 ++ leBytes (coordinate s) 4 ++ leBytes (logicalAddress s) 4⟩)
      ∧ (rq.path = .ring0 → odGet s (od 0x1100 3) ≠ 0 → ∀ x : Reply, (answer s rq [] tr.toNat x).out
          = .frame false (gdpFrame s (rq.source.toNat % 2 ^ 48) []
              (gdpPdu s x.op (2 * flag x.last) tr.toNat x.id x.status x.segment none x.data)) :: s.out))
    ∧ (attachMode s = 0 → exec (.bar2Access req o n none) s = .next s)
    ∧ (attachMode s ≠ 0 → (serverAlive s .bar2 = false ∨ o % 8 ≠ 0 ∨ (n ≠ 4 ∧ n ≠ 8)
          ∨ ((o < 0x8C0000 ∨ 0x8D0000 ≤ o) ∧ objRow (o / 8) = none)) →
        exec (.bar2Access req o n none) s = .next { s with out := .hostData (List.replicate n 0xFF) :: s.out })
    ∧ (attachMode s ≠ 0 → serverAlive s .bar2 = true → (n = 4 ∨ n = 8) →
      (o % 8 = 0 → 0x8C0000 ≤ o → o < 0x8D0000 → exec (.bar2Access req o n none) s
          = .next { s with out := .hostData (Memory.read s.dict.window 0 (o - 0x8C0000) n) :: s.out })
      ∧ (∀ r, o % 8 = 0 → (o < 0x8C0000 ∨ 0x8D0000 ≤ o) → objRow (o / 8) = some r → exec (.bar2Access req o n none) s
          = .next { s with out := .hostData (leBytes (bar2Value s r (o / 8)) n) :: s.out }))

/-- Writes of plain objects (R12, R359, R361, R368, R372, R373): an accepted write is journaled, stores its value with the reserved
fields at zero, is answered with 0x00, and changes no other object; a segmented one is stored whole at its last segment; a BAR2 write
shows its status and object. The model's choice: a single write's command sends no reply, while WRITE and SEGMENT_WRITE do (log entry
38). -/
def Obligations.DictionaryWrites : Prop :=
  ∀ (rq : Requester) (tr cfg : BitVec 32) (index k req : BitVec 16) (sub : BitVec 8) (e : Fin 8) (p : Fin 16) (i : Fin 2528)
    (o : Nat) (b : Bytes) (s : State),
    let id := od index.toNat sub.toNat
    let size := if rq.path = .fabric then 120 else 1024
    let stores (t : State) (rq : Requester) (id v : Nat) (b : Bytes) : Prop :=
      OnlyObjects s t ∧ Journaled s t rq id b false 0 ∧ odGet t id = v ∧ t.odb = s.odb
      ∧ (∀ j, j ≠ id → ¬ ShowsBar2 rq j → odGet t j = odGet s j)
      ∧ (rq.path = .bar2 → odGet t (od 0x1170 4) = 0 ∧ odGet t (od 0x1170 5) = id % 2 ^ 24)
    (PlainScalar id → Accepted s rq id b false 0 → ∃ t, exec (.write rq tr index sub b) s
        = .next (answer t rq [] tr.toNat ⟨4, false, id, 0, 0, []⟩) ∧ stores t rq id (maskReserved id (leNat b)) b)
    ∧ (PlainBytes id → s.dict.segment = none → b.length ≤ size → b.length ≤ longLimit id →
      (Accepted s rq id b true 0 → ∃ t, exec (.segmentWrite rq tr index sub 0 true b) s
          = .next (answer t rq [] tr.toNat ⟨8, false, id, 0, 0, []⟩)
        ∧ OnlyObjects s t ∧ Journaled s t rq id b true 0 ∧ t.od = s.od ∧ odGetBytes t id = b
        ∧ ∀ j, j ≠ id → odGetBytes t j = odGetBytes s j)
      ∧ (b.length = size → longObject id = true → accessStatus s id = 0 → serverAlive s rq.path = true →
          exec (.segmentWrite rq tr index sub 0 false b) s = .next (answer
            { s with dict := { s.dict with segment := some ⟨rq, tr, id, 1, b, now s⟩ } } rq [] tr.toNat ⟨8, false, id, 0, 0, []⟩)))
    ∧ (∀ x : SegWrite, PlainBytes id → s.dict.segment = some x → x.requester = rq → x.transaction = tr → x.id = id →
        x.next = k.toNat → now s ≤ x.last + segmentGap → b.length ≤ size → (x.bytes ++ b).length ≤ longLimit id →
        Accepted s rq id (x.bytes ++ b) true 0 → ∃ t, exec (.segmentWrite rq tr index sub k true b) s
            = .next (answer t rq [] tr.toNat ⟨8, false, id, 0, k.toNat, []⟩)
          ∧ OnlyObjects s t ∧ Journaled s t rq id (x.bytes ++ b) true 0 ∧ t.od = s.od ∧ odGetBytes t id = x.bytes ++ b
          ∧ t.dict.segment = none)
    ∧ (let id := od 0x2000 (0x10 + e.val)
      Accepted s rq id (leBytes cfg.toNat 4) false 0 → ∃ t, exec (.rotationPlanWrite rq e cfg) s = .next t
        ∧ stores t rq id (cfg &&& 0xFFFFFF0F#32).toNat (leBytes cfg.toNat 4))
    ∧ (let id := od 0x5100 (1 + p.val)
      Accepted s rq id b true 0 → rq.path ≠ .bar2 → ∃ t, exec (.trustedPublisherWrite rq p b) s = .next t
        ∧ OnlyObjects s t ∧ Journaled s t rq id b true 0 ∧ t.od = s.od ∧ odGetBytes t id = b
        ∧ ∀ j, j ≠ id → odGetBytes t j = odGetBytes s j)
    ∧ (let id := (counterPlace i.val).config
      Accepted s rq id (leBytes cfg.toNat 4) false 0 → ∃ t, exec (.counterConfigurationWrite rq i cfg) s = .next t
        ∧ stores t rq id (cfg &&& 0xE7FFFFFF#32).toNat (leBytes cfg.toNat 4))
    ∧ (attachMode s ≠ 0 → serverAlive s .bar2 = true → o % 8 = 0 → b.length = 8 →
      (0x8C0000 ≤ o → o < 0x8D0000 → exec (.bar2Access req o 8 (some b)) s
          = .next (odSet (odSet { s with dict := { s.dict with window := Memory.write s.dict.window 0 (o - 0x8C0000) b } }
              (od 0x1170 4) 0) (od 0x1170 5) 0))
      ∧ (∀ r, (o < 0x8C0000 ∨ 0x8D0000 ≤ o) → objRow (o / 8) = some r → r.type.long = false → upperForm r (leNat b) = true →
          PlainScalar (o / 8) → Accepted s (bar2Requester req) (o / 8) (b.take r.type.bytes) false 0 →
          ∃ t, exec (.bar2Access req o 8 (some b)) s = .next t
            ∧ stores t (bar2Requester req) (o / 8) (maskReserved (o / 8) (leNat (b.take r.type.bytes))) (b.take r.type.bytes)))

/-- Refused writes (R359, R361, R373, R376): a write that ends with a status above 0x01, as an operation or as a command of its own, is
journaled and shows its status, and changes nothing else but what the refusals of a tally and of a substitution show. A write that
nothing serves is lost. The model's choices: a request on a path that nothing serves is lost (log entry 38), and what the refusals of a
tally and a substitution show is log entries 37 and 52. -/
def Obligations.RefusedWrites : Prop :=
  ∀ (c : Instr) (rq : Requester) (tr : BitVec 32) (index : BitVec 16) (sub : BitVec 8) (id : Nat) (b : Bytes) (long : Bool)
    (st : Nat) (s : State),
    let refused (t : State) (id : Nat) (long : Bool) : Prop :=
      OnlyObjects s t ∧ Journaled s t rq id b long st ∧ t.odb = s.odb
      ∧ (∀ j, j ≠ od 0x4C00 7 → j ≠ od 0x3904 4 → ¬ ShowsBar2 rq j → odGet t j = odGet s j)
      ∧ (rq.path = .bar2 → odGet t (od 0x1170 4) = st ∧ odGet t (od 0x1170 5) = id % 2 ^ 24)
      ∧ odGet t (od 0x4C00 7) = (if id = od 0x4C00 6 ∧ st = 0x0A then 3 else odGet s (od 0x4C00 7))
      ∧ odGet t (od 0x3904 4) = (if (id = od 0x3A00 6 ∨ id = od 0x3A00 7) ∧ st = 0x0A then 0x38 else odGet s (od 0x3904 4))
    (ownWriteOf c = some (rq, id, b, long) →
      (serverAlive s rq.path = false → exec c s = .next s)
      ∧ (1 < st → Accepted s rq id b long st → ∃ t, exec c s = .next t ∧ refused t id long))
    ∧ (let id := od index.toNat sub.toNat
      (serverAlive s rq.path = false → exec (.write rq tr index sub b) s = .next s)
      ∧ (1 < st → Accepted s rq id b false st → ∃ t, exec (.write rq tr index sub b) s
          = .next (answer t rq [] tr.toNat ⟨4, false, id, st, 0, []⟩) ∧ refused t id false))

/-- Post-timed writes (R207, R209, R241, R268, R362, R363, Table 14.4): with status 0x01 the value is stored and waits for the next
fair post, and nothing else changes; with 0x00 its effect comes at once, in place of an earlier write that still waited: the target
step, the slot's balancing, a link that retrains or retires. The model's choice: a single write's command sends no reply (log entry
38). -/
def Obligations.PostTimedWrites : Prop :=
  ∀ (rq : Requester) (n : CoreId) (slot : SlotId) (l : LinkId) (v : Byte) (s : State),
    let waits (c : Instr) (id : Nat) : Prop := Accepted s rq id [v] false 1 → ∃ t, exec c s = .next t
      ∧ OnlyObjects s t ∧ Journaled s t rq id [v] false 1 ∧ odGet t id = v.toNat ∧ id ∈ t.dict.pendingPost
      ∧ (∀ j, j ∈ s.dict.pendingPost → j ∈ t.dict.pendingPost) ∧ t.odb = s.odb
      ∧ ∀ j, j ≠ id → j ≠ od 0x2028 6 → ¬ ShowsBar2 rq j → odGet t j = odGet s j
    waits (.bankSwitchRequest rq n v) (od (0x3000 + n.val) 4)
    ∧ waits (.arm rq v) (od 0x2020 5)
    ∧ waits (.landRequest rq v) (od 0x2028 5)
    ∧ waits (.balancingEnable rq slot v) (od (0x2010 + slot.val) 7)
    ∧ waits (.targetStep rq v) (od 0x2410 1)
    ∧ waits (.retrainRequest rq l v) (od (linkIndex l.val) 0x20)
    ∧ waits (.retireRequest rq l v) (od (linkIndex l.val) 0x21)
    ∧ (Accepted s rq (od 0x2028 5) [1] false 1 → ∃ t, exec (.landRequest rq 1) s = .next t
        ∧ odGet t (od 0x2028 6) = if odGet s (od 0x2028 5) = 1 then 4 else 3)
    ∧ (Accepted s rq (od 0x2410 1) [v] false 0 → ∃ t, exec (.targetStep rq v) s = .next t
        ∧ odGet t (od 0x2410 1) = v.toNat ∧ t.power.target = v.toNat ∧ od 0x2410 1 ∉ t.dict.pendingPost
        ∧ (∀ j ∈ s.dict.pendingPost, j ≠ od 0x2410 1 → j ∈ t.dict.pendingPost) ∧ t.cores = s.cores ∧ t.ext = s.ext)
    ∧ (Accepted s rq (od (0x2010 + slot.val) 7) [v] false 0 → ∃ t, exec (.balancingEnable rq slot v) s = .next t
        ∧ odGet t (od (0x2010 + slot.val) 7) = v.toNat ∧ Table.look t.ctx.balancing false slot.val = decide (v = 1)
        ∧ (∀ j, j ≠ slot.val → Table.look t.ctx.balancing false j = Table.look s.ctx.balancing false j)
        ∧ t = { s with od := t.od, dict := t.dict, ctx := { s.ctx with balancing := t.ctx.balancing } })
    ∧ (Accepted s rq (od (linkIndex l.val) 0x20) [1] false 0 → linkState s l.val = lsUp →
        ∃ t, exec (.retrainRequest rq l 1) s = .next t ∧ linkState t l.val = lsHeld ∧ odGet t (od (linkIndex l.val) 0x19) = 6
          ∧ noticeWord s l.val false ∈ t.vote.notices ∧ t.cores = s.cores ∧ t.ext = s.ext)
    ∧ (Accepted s rq (od (linkIndex l.val) 0x21) [1] false 0 → linkState s l.val ≠ lsOff → linkState s l.val ≠ lsTraining →
        linkState s l.val ≠ lsRetired → ∃ t, exec (.retireRequest rq l 1) s = .next t ∧ linkState t l.val = lsRetired
          ∧ deviceState t ≠ stRunning ∧ t.cores = s.cores ∧ t.ext = s.ext)

/-- Frames (R365 to R367, R370, R375): a port without link takes nothing; a bad FCS, a foreign EtherType and an own frame are counted
and dropped; a frame for another station leaves by the other port with its hop limit reduced; a request to this station or to every
station, or in a bale from the fabric, acts as the command of its operation, and one to every station leaves by the other port too; one
with the tunnel flag waits as a tunnel for its reply, which goes back to the station that asked; over the fabric that flag is refused
with 0x09, and a device without a logical address is not reached. The model's choices: a dropped forward is counted in OD 1100.12 (log
entry 53), and a request that nothing serves is lost (log entry 38). -/
def Obligations.FramesTaken : Prop :=
  ∀ (port : Bool) (f pdu : Bytes) (src : BitVec 20) (s : State),
    let inLink := odGet s (od 0x1100 (if port then 4 else 3))
    let outLink := odGet s (od 0x1100 (if port then 3 else 4))
    let dest := beNat (slice f 0 6)
    let station := beNat (slice f 6 6)
    let own := odGet s (od 0x1100 1)
    let rq : Requester := ⟨if port then .ring1 else .ring0, BitVec.ofNat 64 station⟩
    let counted (t : State) (sub : Nat) : Prop := t = { s with od := t.od }
      ∧ odGet t (od 0x1100 sub) = (odGet s (od 0x1100 sub) + 1) % 2 ^ 32
      ∧ ∀ j, j ≠ od 0x1100 sub → odGet t j = odGet s j
    ((ringAlive s = false ∨ inLink = 0) → ∀ good, exec (.frameReceive port f good) s = .next s)
    ∧ (ringAlive s = true → inLink ≠ 0 →
      (∃ t, exec (.frameReceive port f false) s = .next t ∧ counted t 0x13)
      ∧ (14 ≤ f.length → beNat (slice f 12 2) ≠ 0x8100 →
        (beNat (slice f 12 2) ≠ odGet s (od 0x1100 2) ∨ station = own →
          ∃ t, exec (.frameReceive port f true) s = .next t ∧ counted t 0x12)
        ∧ (beNat (slice f 12 2) = odGet s (od 0x1100 2) → station ≠ own →
          (readGdp (f.drop 14) false = none → ∃ t, exec (.frameReceive port f true) s = .next t ∧ counted t 0x13)
          ∧ ∀ p, readGdp (f.drop 14) false = some p →
            (dest ≠ own → dest ≠ 2 ^ 48 - 1 → 2 ≤ p.hop → outLink ≠ 0 →
              ∃ t o, exec (.frameReceive port f true) s = .next { t with out := o } ∧ counted t 0x11
                ∧ o = .frame (!port) (f.take 16 ++ [BitVec.ofNat 8 (p.hop - 1)] ++ f.drop 17) :: s.out)
            ∧ (dest ≠ own → dest ≠ 2 ^ 48 - 1 → p.hop < 2 → ∃ t, exec (.frameReceive port f true) s = .next t ∧ counted t 0x12)
            ∧ (dest = own → p.version = 1 → p.tunnel = false → ∀ c, requestCommand rq p = some c →
              ∃ t, exec (.frameReceive port f true) s = exec c t ∧ counted t 0x10)
            ∧ (dest = 2 ^ 48 - 1 → own ≠ dest → p.version = 1 → p.tunnel = false → ∀ c, requestCommand rq p = some c →
              ∃ t, exec (.frameReceive port f true) s = exec c t ∧ t = { s with od := t.od, out := t.out }
                ∧ odGet t (od 0x1100 0x10) = (odGet s (od 0x1100 0x10) + 1) % 2 ^ 32
                ∧ (p.hop < 2 ∨ outLink = 0 → t.out = s.out ∧ odGet t (od 0x1100 0x11) = odGet s (od 0x1100 0x11))
                ∧ (2 ≤ p.hop → outLink ≠ 0 →
                    t.out = .frame (!port) (f.take 16 ++ [BitVec.ofNat 8 (p.hop - 1)] ++ f.drop 17) :: s.out
                    ∧ odGet t (od 0x1100 0x11) = (odGet s (od 0x1100 0x11) + 1) % 2 ^ 32))
            ∧ (dest = own → p.version = 1 → p.tunnel = true → requestOp p.op = true → serverAlive s rq.path = true →
              deviceState s ≠ stBoot → p.data.length ≤ 120 → logicalAddress s < 2 ^ 20 →
              (getWindow s p.target).limit ≤ (getWindow s p.target).unacked →
              ∃ t x, exec (.frameReceive port f true) s = .next t ∧ t.dict.tunnels = s.dict.tunnels ++ [x]
                ∧ x.op = p.op ∧ x.transaction.toNat = p.transaction ∧ x.id = p.id ∧ x.target.toNat = p.target
                ∧ x.back = some (port, BitVec.ofNat 48 station) ∧ x.sent = now s ∧ t.out = s.out
                ∧ (getWindow t p.target).waiting.length = (getWindow s p.target).waiting.length + 1))))
    ∧ ((readGdp pdu true = none ∨ 2 ^ 20 ≤ logicalAddress s) → exec (.dictionaryFrame src pdu) s = .next s)
    ∧ (∀ p, readGdp pdu true = some p → logicalAddress s < 2 ^ 20 →
      (p.version = 1 → p.tunnel = false → ∀ c, requestCommand ⟨.fabric, src.setWidth 64⟩ p = some c →
        exec (.dictionaryFrame src pdu) s = exec c s)
      ∧ (replyOp p.op = false → p.tunnel = true → serverAlive s .fabric = true → exec (.dictionaryFrame src pdu) s
          = .next (answer (journalRefused s ⟨.fabric, src.setWidth 64⟩ p.op p.id p.data) ⟨.fabric, src.setWidth 64⟩ []
              p.transaction ⟨p.op + 1, false, p.id, 0x09, if p.op = 5 ∨ p.op = 7 then p.segment else 0, []⟩))
      ∧ (∀ x q station, replyOp p.op = true →
          s.dict.tunnels.find? (fun x => x.target = src && x.transaction.toNat = p.transaction && x.op + 1 = p.op) = some x →
          x.back = some (q, station) → odGet s (od 0x1100 (if q then 4 else 3)) ≠ 0 →
          exec (.dictionaryFrame src pdu) s = .next { s with
            dict := { s.dict with tunnels := s.dict.tunnels.filter fun y => y ≠ x }
            out := .frame q (gdpFrame s station.toNat x.vlan (gdpPdu s p.op (1 + 2 * flag p.last) p.transaction p.id p.status
              p.segment (some src.toNat) p.data)) :: s.out }))

/-- Timeouts and the transfer window (R368, R370, R374): a segmented write that has waited for more than 100 ms is discarded, and its
transaction's snapshots expire; a tunnel without a reply for 10 ms ends with 0x0B; window command 1 puts a value into the window,
command 2 writes the value that it holds, and command 3 sends the request that it holds; each shows how it ended. The model's choices:
a segment's timeout journals and answers nothing (log entry 52), window command 3 with bad framing gives 0x06 (log entry 53), and a
timeout that is not due changes nothing (log entry 14). -/
def Obligations.TimeoutsAndWindow : Prop :=
  ∀ (rq : Requester) (tr : BitVec 32) (req : BitVec 16) (s : State),
    let id := odGet s (od 0x1170 1)
    let n := odGet s (od 0x1170 2)
    let b := Memory.read s.dict.window 0 0 n
    let target := odGet s (od 0x1170 6) % 2 ^ 20
    let runs (v : Byte) : Prop := Accepted s (bar2Requester req) (od 0x1170 3) [v] false 0
    (∃ t, exec (.segmentTimeout rq tr) s = .next t ∧ t = { s with dict := { s.dict with
          segment := t.dict.segment, snapshots := t.dict.snapshots } }
      ∧ (∀ x, x ∈ t.dict.snapshots ↔
          x ∈ s.dict.snapshots ∧ ¬ (x.requester = rq ∧ x.transaction = tr ∧ x.last + segmentGap < now s))
      ∧ (∀ x, s.dict.segment = some x → t.dict.segment
          = if x.requester = rq ∧ x.transaction = tr ∧ x.last + segmentGap < now s then none else some x))
    ∧ ((∀ x ∈ s.dict.tunnels, x.transaction = tr → now s < x.sent + 12500000) → exec (.tunnelTimeout tr) s = .next s)
    ∧ (∀ x, s.dict.tunnels.find? (fun x => x.transaction = tr && decide (x.sent + 12500000 ≤ now s)) = some x →
      ∃ t, exec (.tunnelTimeout tr) s = .next t ∧ t.dict.tunnels = s.dict.tunnels.filter (fun y => y ≠ x)
        ∧ (x.back = none → odGet t (od 0x1170 4) = 0x0B ∧ odGet t (od 0x1170 7) = 3 ∧ t.out = s.out)
        ∧ (∀ p station, x.back = some (p, station) → odGet s (od 0x1100 (if p then 4 else 3)) ≠ 0 → t.od = s.od
          ∧ t.out = .frame p (gdpFrame s station.toNat x.vlan (gdpPdu s (x.op + 1) 1 x.transaction.toNat x.id 0x0B
              (if x.op = 5 ∨ x.op = 7 then x.segment else 0) (some x.target.toNat) [])) :: s.out))
    ∧ (runs 1 →
      (objRow id = none → ∃ t, exec (.windowRead req) s = .next t ∧ OnlyObjects s t
        ∧ odGet t (od 0x1170 4) = 0x02 ∧ odGet t (od 0x1170 7) = 3 ∧ t.dict.window = s.dict.window)
      ∧ (∀ r, objRow id = some r → id / 256 ≠ 0x1170 → (id / 256 < 0x1200 ∨ 0x1300 ≤ id / 256) →
        (objectBytes s r id).length < 2 ^ 32 → ∃ t, exec (.windowRead req) s = .next t ∧ OnlyObjects s t
          ∧ odGet t (od 0x1170 2) = (objectBytes s r id).length ∧ odGet t (od 0x1170 4) = 0 ∧ odGet t (od 0x1170 7) = 2
          ∧ t.dict.window = Memory.write s.dict.window 0 0 (objectBytes s r id)))
    ∧ (runs 2 → ∀ st, longObject id = false → writeStatus s id b false none = st → PlainScalar id → id / 256 ≠ 0x1170 →
      ∃ t, exec (.windowWrite req) s = .next t ∧ OnlyObjects s t ∧ t.dict.entries = s.dict.entries + 2
        ∧ (st = 0 → odGet t id = maskReserved id (leNat b) ∧ odGet t (od 0x1170 4) = 0 ∧ odGet t (od 0x1170 7) = 2)
        ∧ (1 < st → odGet t id = odGet s id ∧ odGet t (od 0x1170 4) = st ∧ odGet t (od 0x1170 7) = 3))
    ∧ (runs 3 →
      (n < 16 → ∃ t, exec (.windowTunnel req) s = .next t ∧ OnlyObjects s t
        ∧ odGet t (od 0x1170 4) = 0x06 ∧ odGet t (od 0x1170 7) = 3 ∧ t.dict.tunnels = s.dict.tunnels)
      ∧ (n = 16 + beNat (slice b 12 2) → n ≤ 136 → field b 3 1 % 2 = 0 → requestOp (field b 1 1) = true →
        logicalAddress s < 2 ^ 20 → (getWindow s target).limit ≤ (getWindow s target).unacked →
        ∃ t x, exec (.windowTunnel req) s = .next t ∧ t.dict.tunnels = s.dict.tunnels ++ [x]
          ∧ x.op = field b 1 1 ∧ x.transaction.toNat = beNat (slice b 4 4) ∧ x.target.toNat = target ∧ x.back = none
          ∧ x.sent = now s ∧ odGet t (od 0x1170 7) = 1
          ∧ (getWindow t target).waiting.length = (getWindow s target).waiting.length + 1))

/-- Cargo (R386 to R391, R393, Tables 15.5 and 15.7): a command runs with status 0x01 and changes no entry before its end. An open
whose manifest, hash tree, publisher, signature and segments check is to fill the lowest free entry; a page that is copied, or judged
in place, is to be marked as its leaf says; an entry is not released while a resident leg names its base. At the end the entries,
the status and the detail change. The model's choices: a staged range that is not mapped ends with 0x02, and the detail of a good
command is its entry (log entry 35); an end with no command running changes nothing (log entry 14). -/
def Obligations.CargoCommands : Prop :=
  ∀ (rq : Requester) (h : CargoHeader) (manifest : Bytes) (leaves : List Bytes) (k e : Nat) (s : State),
    let runs (v : Byte) : Prop := Accepted s rq (od 0x5120 2) [v] false 0
    let begins (c : Instr) (r : CargoRun → Prop) : Prop := ∃ t r', exec c s = .next t ∧ t.cargo = { s.cargo with running := some r' }
      ∧ r r' ∧ odGet t (od 0x5120 7) = 1 ∧ t.cores = s.cores ∧ t.legs = s.legs
    let a := odGet s (od 0x5120 1)
    let all := segments h.segments manifest
    let entry := getCargo s (odGet s (od 0x5120 3))
    let page := odGet s (od 0x5120 4)
    let place := pageAddress entry.segments page
    (runs 1 → mappedRange s a 24576 = false → begins (.cargoOpen rq) fun r => r = ⟨0x02, 0, none, [], none⟩)
    ∧ (runs 1 → readCargoHeader (readExt s a 256) = h → readExt s (a + 8192) (16 * h.segments) = manifest →
        (countFrom 0 h.pages).map (fun i => readExt s (a + 24576 + 32 * i) 32) = leaves → mappedRange s a 24576 = true →
        h.ok = true → mappedRange s a (24576 + 32 * h.pages) = true → firstBad s a 8112 = none →
        firstBad s (a + 8192) (16 * h.segments) = none → firstBad s (a + 24576) (32 * h.pages) = none → all.foldl (fun t x => t + x.2) 0 = h.pages → (∀ x ∈ all, x.2 ≠ 0) →
      (publisherOf s h.keyHash = none → begins (.cargoOpen rq) fun r => r = ⟨0x03, 0, none, [], none⟩)
      ∧ (publisherOf s h.keyHash = some k →
        (merkleRoot 25 leaves ≠ h.root → begins (.cargoOpen rq) fun r => r = ⟨0x05, k, none, [], none⟩)
        ∧ (merkleRoot 25 leaves = h.root →
            (∀ i, i < h.segments → segmentAllowed s all i = true) → e < 64 → (getCargo s e).live = false →
            (∀ j, j < e → (getCargo s j).live = true) →
            begins (.cargoOpen rq) fun r =>
              if Config.slhDsaVerify .sha2_128s (publisherKey s k) (readExt s a 256) (readExt s (a + 256) 7856) then
                ∃ x, r = ⟨0x00, e, some (e, x), [], none⟩ ∧ x.state = 1 ∧ x.pages = h.pages
                  ∧ x.publisher = k ∧ x.root = h.root ∧ x.leaves = leaves ∧ x.manifest = manifest ∧ x.matched = []
              else r = ⟨0x04, k, none, [], none⟩)))
    ∧ (entry.live = true → odGet s (od 0x5120 5) = 1 → page + 1 ≤ entry.pages →
      (let from' := odGet s (od 0x5120 6)
        let b := readExt s from' 65536
        runs 2 → mappedRange s from' 65536 = true → firstBad s from' 65536 = none →
        begins (.cargoPagesCopy rq) (fun r => r.opened = none ∧ r.freed = none
          ∧ if sha256 (0 :: b) = entry.leaves.getD page [] then
              r.status = 0x00 ∧ r.judged = [(odGet s (od 0x5120 3), page, true)]
            else r.status = 0x06 ∧ r.detail = page ∧ r.judged = [(odGet s (od 0x5120 3), page, false)])
        ∧ ∃ t, exec (.cargoPagesCopy rq) s = .next t ∧ t.ext = (extWrite s place b).ext)
      ∧ (let b := readExt s place 65536
        runs 3 → mappedRange s place 65536 = true → firstBad s place 65536 = none →
        begins (.cargoPagesInPlace rq) (fun r => r.opened = none ∧ r.freed = none
          ∧ if sha256 (0 :: b) = entry.leaves.getD page [] then
              r.status = 0x00 ∧ r.judged = [(odGet s (od 0x5120 3), page, true)]
            else r.status = 0x06 ∧ r.detail = page ∧ r.judged = [(odGet s (od 0x5120 3), page, false)])
        ∧ ∃ t, exec (.cargoPagesInPlace rq) s = .next t ∧ t.ext = s.ext))
    ∧ (entry.live = false →
      (runs 2 → begins (.cargoPagesCopy rq) fun r => r = ⟨0x02, 0, none, [], none⟩)
      ∧ (runs 3 → begins (.cargoPagesInPlace rq) fun r => r = ⟨0x02, 0, none, [], none⟩))
    ∧ (runs 5 → begins (.cargoRelease rq) fun r => r = if entry.live && baseReferenced s entry.base then
        ⟨0x0A, odGet s (od 0x5120 3), none, [], none⟩
      else ⟨0x00, odGet s (od 0x5120 3), none, [], some (odGet s (od 0x5120 3))⟩)
    ∧ (s.cargo.running = none → exec .cargoCommandEnd s = .next s)
    ∧ (∀ r, s.cargo.running = some r → ∃ t, exec .cargoCommandEnd s = .next t ∧ t = { s with od := t.od, cargo := t.cargo }
        ∧ t.cargo = { s.cargo with running := none, entries := t.cargo.entries }
        ∧ odGet t (od 0x5120 7) = r.status % 256 ∧ odGet t (od 0x5120 8) = r.detail % 2 ^ 32
        ∧ (∀ x, r.opened = some (e, x) → r.judged = [] → r.freed = none → ∀ j, getCargo t j = if j = e then x else getCargo s j)
        ∧ (r.opened = none → r.judged = [] → r.freed = some e → ∀ j, getCargo t j = if j = e then CargoEntry.reset else getCargo s j)
        ∧ (∀ p ok, r.opened = none → r.judged = [(e, p, ok)] → r.freed = none → (getCargo s e).live = true →
            let x := getCargo s e
            let y := getCargo t e
            y.matched = Table.put x.matched false p ok ∧ y.root = x.root ∧ y.leaves = x.leaves
            ∧ (ok = true → y.state = if y.matchedPages = x.pages then 2 else x.state)
            ∧ (ok = false → x.state = 2 → y.state = 3 ∧ y.damaged = min x.damaged p)))

/-- Firmware and attestation (R384, R394, R396, R398): a chunk is programmed at its offset, which advances; each command runs with
status 0x01, and what it does to flash, to the boot control block and to the fused floor is as R398 says; the floor never falls;
verification gives the status of the first check that fails; the report takes the nonce as it is written and stands at the end. The
model's choices: flash programs as NOR flash does (log entry 34), and an end with nothing running changes nothing (log entry 14). -/
def Obligations.FirmwareAndAttestation : Prop :=
  ∀ (rq : Requester) (b : Bytes) (slot : Nat) (s : State),
    let active := odGet s (od 0x5200 1)
    let base := flashSlot (1 - active % 2)
    let o := odGet s (od 0x5200 0x10)
    let programmed (a : Nat) (b : Bytes) : Bytes := List.zipWith (· &&& ·) (Memory.read s.flash 0xFF a b.length) b
    let runs (v : Byte) : Prop := Accepted s rq (od 0x5200 0x14) [v] false 0
    let begins (c : Instr) (t : State) (st : Nat) : Prop := exec c s = .next t ∧ t.cargo.firmware = some st
      ∧ odGet t (od 0x5200 0x15) = 1 ∧ t = { s with od := t.od, dict := t.dict, flash := t.flash, fuses := t.fuses, cargo := t.cargo }
    (Accepted s rq (od 0x5200 0x11) b true 0 → ∃ t, exec (.chunk rq b) s = .next t
        ∧ t.flash = Memory.write s.flash 0xFF (base + o) (programmed (base + o) b) ∧ odGet t (od 0x5200 0x10) = o + b.length
        ∧ odGet t (od 0x5200 0x15) = (if programmed (base + o) b = b then 0x00 else 0x0D)
        ∧ t = { s with od := t.od, dict := t.dict, flash := t.flash, cargo := { s.cargo with verifiedSince := false } })
    ∧ (let a := odGet s (od 0x5200 0x12)
      let n := odGet s (od 0x5200 0x13)
      let image := readExt s a n
      runs 1 → (n = 0 → ∃ t, begins (.firmwareProgram rq) t 0x02 ∧ t.flash = s.flash)
        ∧ (0 < n → n ≤ 0x800000 → mappedRange s a n = true → firstBad s a n = none → ∃ t,
            begins (.firmwareProgram rq) t (if programmed base image = image then 0x00 else 0x0D)
            ∧ t.flash = Memory.write s.flash 0xFF base (programmed base image) ∧ t.cargo.verifiedSince = false))
    ∧ (runs 2 → ∃ t, begins (.firmwareVerify rq) t (verifySlot s (1 - active % 2)) ∧ t.flash = s.flash ∧ t.fuses = s.fuses
        ∧ t.cargo.verifiedSince = decide (verifySlot s (1 - active % 2) = 0))
    ∧ (runs 3 → (bootBlock s).count + 1 < 2 ^ 32 → ∃ t, begins (.setTrial rq) t 0x00 ∧ t.fuses = s.fuses
        ∧ bootBlock t = ⟨(bootBlock s).preferred, true, (bootBlock s).count + 1⟩)
    ∧ (runs 4 → (bootBlock s).count + 1 < 2 ^ 32 → ∃ t, begins (.commit rq) t 0x00 ∧ t.fuses = s.fuses
        ∧ bootBlock t = ⟨active % 2, false, (bootBlock s).count + 1⟩ ∧ odGet t (od 0x5200 7) = 0)
    ∧ (runs 5 → ∃ t, t.flash = s.flash
        ∧ (odGet s (od 0x5200 7) = 1 → begins (.raiseFuseFloor rq) t 0x0C ∧ t.fuses = s.fuses)
        ∧ (odGet s (od 0x5200 7) ≠ 1 → begins (.raiseFuseFloor rq) t 0x00 ∧ t.fuses = { s.fuses with floor := t.fuses.floor }
            ∧ t.fuses.floor.toNat = max s.fuses.floor.toNat (field (slotHeader s active) 5 1)))
    ∧ (runs 6 → ∃ t, begins (.erase rq) t 0x00 ∧ t.fuses = s.fuses
        ∧ ∀ a, Table.look t.flash 0xFF a = if base ≤ a ∧ a < base + 0x800000 then 0xFF else Table.look s.flash 0xFF a)
    ∧ (s.cargo.firmware = none → exec .firmwareCommandEnd s = .next s)
    ∧ (∀ st, s.cargo.firmware = some st → ∃ t, exec .firmwareCommandEnd s = .next t ∧ odGet t (od 0x5200 0x15) = st % 256
        ∧ t = { s with od := t.od, cargo := { s.cargo with firmware := none } })
    ∧ (let x := slotHeader s slot
      let key := slice x 20 48
      (headerValid x = false → verifySlot s slot = 0x02)
      ∧ (headerValid x = true → sha256 key ≠ s.fuses.rootKeyHash → verifySlot s slot = 0x04)
      ∧ (headerValid x = true → sha256 key = s.fuses.rootKeyHash → field x 5 1 < s.fuses.floor.toNat → verifySlot s slot = 0x0B)
      ∧ (headerValid x = true → sha256 key = s.fuses.rootKeyHash → s.fuses.floor.toNat ≤ field x 5 1 →
          verifySlot s slot = if Config.slhDsaVerify .sha2_192s key (slotImage s slot)
            (flashBytes s (flashSlot slot + (slotImage s slot).length) 16224) then 0x00 else 0x04))
    ∧ (Accepted s rq (od 0x5010 1) b true 0 → ∃ t r, exec (.attestationNonce rq b) s = .next t
        ∧ t = { s with od := t.od, dict := t.dict, cargo := { s.cargo with attesting := some r } } ∧ odGet t (od 0x5010 3) = 1
        ∧ (r.drop 8).take 32 = b)
    ∧ (∀ r, s.cargo.attesting = some r → ∃ t, exec .attestationDone s = .next t
        ∧ t = { s with od := t.od, cargo := { s.cargo with attesting := none, report := r } } ∧ odGet t (od 0x5010 3) = 2
        ∧ odGet t (od 0x5010 4) = (odGet s (od 0x5010 4) + 1) % 2 ^ 32)
    ∧ (s.cargo.attesting = none → exec .attestationDone s = .next s)

/-- Resets of the part and start-up (R358, R396, R404, R449, R450, R452, R454 to R457, R462): a reset keeps fuses, flash and the pins
that others drive, and everything else is as after reset, every object at its default, but that a device without power is OFF; its
outputs are at their reset levels; at its end the straps are sampled and the PLLs lock, every core is OFF until its row's regulator
settles, and the first slot that verifies runs, takes the PMBus and calibrates, after a warm reset with its rails off for 10 ms; while
strapped for recovery or test, or with no such slot, the device stays in BOOT; each start-up step finishes once, and the first one not
before converters 0 to 2 are in tolerance. The model's choices: how step 1a names its failures (log entry 60), and an event that is
not due changes nothing (log entry 14). -/
def Obligations.ResetsAndCalibration : Prop :=
  ∀ (fell recovery test : Bool) (coord : BitVec 20) (step : CalStep) (failed : List Nat) (s : State),
    let p := (bootBlock s).preferred
    let due := odGet s (od 0x2420 1) = 0 ∧ (deviceState s = stBoot ∨ deviceState s = stOff)
    (∃ t, exec (.partReset fell) s = .next t ∧ t = { State.reset with
          od := t.od, pending := s.pending, out := s.out, fresh := s.fresh, fuses := s.fuses, flash := s.flash, pins := t.pins
          boot := { State.reset.boot with warm := !fell } }
        ∧ outputLevels t = { thermtripN := fell || s.pins.thermtripN, devOk := false, pmbOwnN := true
                             qspiDeselected := true, lpResetN := false, transmittersIdle := true }
        ∧ t.pins = { coord := 0, recovery := false, testEn := false, perstN := s.pins.perstN
                     thermtripN := fell || s.pins.thermtripN, pmbOwnN := true }
        ∧ ∀ id, odGet t id = if fell = true ∧ id = od 0x1001 1 then stOff else objDefault id)
    ∧ (¬ due → exec (.resetEnd coord recovery test) s = .next s)
    ∧ (due → ∃ t, exec (.resetEnd coord recovery test) s = .next t ∧ t.ext = s.ext ∧ t.fuses = s.fuses
        ∧ (∀ p, p < 312 → getCore t p = { Core.resetAt p with state := .off })
        ∧ t.pins.coord = coord ∧ t.pins.recovery = recovery ∧ t.pins.testEn = test ∧ odGet t (od 0x2420 1) = 0x0F
        ∧ odGet t (od 0x3A00 1) = coord.toNat ∧ odGet t (od 0x1100 1) = 0x024700000000 + s.fuses.serial.toNat % 2 ^ 32
        ∧ t.time.counter = 0
        ∧ (outputLevels t).lpResetN = true
        ∧ (recovery = true ∨ test = true → deviceState t = stBoot ∧ t.boot = s.boot ∧ t.flash = s.flash ∧ devOk t = false)
        ∧ (recovery = false → test = false → s.boot.runningFirmware = false →
          let starts (slot reason : Nat) : Prop :=
            odGet t (od 0x5200 1) = slot ∧ odGet t (od 0x5200 2) = reason ∧ t.boot.runningFirmware = true
            ∧ deviceState t = (if s.vote.loss = true then stFaulted else stCalibrating) ∧ devOk t = !s.vote.loss
            ∧ odGet t (od 0x2800 9) = 1 ∧ t.pins.pmbOwnN = false
            ∧ (s.boot.warm = false → t.boot.railsFrom = s.boot.railsFrom)
            ∧ (s.boot.warm = true → t.boot.railsFrom = 12500000
              ∧ ∀ k, 3 ≤ k → k < 16 → odGet t (od (converterIndex k) 7) = 0)
          ((bootBlock s).trial = false → t.flash = s.flash
            ∧ (if verifySlot s p = 0 then starts p 0 else if verifySlot s (1 - p) = 0 then starts (1 - p) 1
              else deviceState t = stBoot ∧ t.boot = s.boot))
          ∧ ((bootBlock s).trial = true → (bootBlock s).count + 1 < 2 ^ 32 → (bootBlock t).trial = false
            ∧ (if verifySlot s (1 - p) = 0 then starts (1 - p) 2 ∧ odGet t (od 0x5200 7) = 1
              else if verifySlot s p = 0 then starts p 1 else deviceState t = stBoot ∧ t.boot = s.boot))))
    ∧ (deviceState s ≠ stCalibrating ∨ step ∈ s.boot.stepsDone ∨ stepReady s step = false →
        exec (.calibrationStepDone step failed) s = .next s)
    ∧ stepReady s .rails = decide (s.boot.railsFrom ≤ now s)
    ∧ (deviceState s = stCalibrating → .rails ∉ s.boot.stepsDone → s.boot.railsFrom ≤ now s →
      let bad (k : Nat) : Prop := k ∈ failed ∨ 16 + k ∈ failed
      ((∃ k < 3, bad k) → ∃ t, exec (.calibrationStepDone .rails failed) s = .next t ∧ t = { s with od := t.od }
        ∧ ∀ id, odGet t id = if ∃ k < 3, id = od (converterIndex k) 1 ∧ 16 + k ∉ failed then 1 else odGet s id)
      ∧ ((∀ k < 3, ¬ bad k) → ∃ t, exec (.calibrationStepDone .rails failed) s = .next t
        ∧ t.boot.stepsDone = .rails :: s.boot.stepsDone
        ∧ (∀ k < 16, 16 + k ∉ failed → odGet t (od (converterIndex k) 1) = 1)
        ∧ (∀ g ∈ railGroups, (∀ k ∈ g, ¬ bad k) → ∀ k ∈ g, odGet t (od (converterIndex k) 7) = 2)
        ∧ (∀ k, 3 ≤ k → k < 9 → bad k → ∀ x ∈ fedInterfaces k, odGet t (od (ifaceIndex x) 2) = 2)
        ∧ (∀ k, 9 ≤ k → k < 12 → bad k → (∃ j, 9 ≤ j ∧ j < 12 ∧ 16 + j ∉ failed) →
            ∀ x ∈ fedInterfaces k, odGet t (od (ifaceIndex x) 2) = 2)
        ∧ (25 ∈ failed → 26 ∈ failed → 27 ∈ failed →
            ∀ x ∈ fedInterfaces 9, odGet t (od (ifaceIndex x) 2) = odGet s (od (ifaceIndex x) 2))))
    ∧ (deviceState s = stCalibrating → step ∉ s.boot.stepsDone → stepReady s step = true → step ≠ .rails →
        ∃ t, exec (.calibrationStepDone step failed) s = .next t ∧ t.fuses = s.fuses ∧ t.flash = s.flash
          ∧ t.boot = { s.boot with stepsDone := step :: s.boot.stepsDone, calibrations := t.boot.calibrations }
          ∧ (step ≠ .rowRegulators → t.boot.calibrations = s.boot.calibrations)
          ∧ (step = .rowRegulators → ∀ p, (getCore t p).state ≠ .off)
          ∧ (step = .coreTest → failed = [] → ∀ p, p < 312 → getCore t p = Core.resetAt p)
          ∧ (∀ p, step = .coreTest → failed = [p] → p < 312 → p % 13 ≠ 12 → odGet s (od (0x3400 + p / 13) 2) ≠ 0 →
              (getCore t p).state = .retired ∧ (getCore t (13 * (p / 13) + 12)).state = .idle
              ∧ odGet t (od (0x3400 + p / 13) 1) = p % 13 ∧ odGet t (od (0x3400 + p / 13) 2) = 0)
          ∧ (∀ k, step = .hbmStack k → failed = [] → odGet s (od (0x4000 + k.val) 2) ≠ 2 →
              odGet t (od (0x4000 + k.val) 1) = s.fuses.stackGiB.toNat ∧ odGet t (od (0x4000 + k.val) 2) = 1
              ∧ t.cores = s.cores
              ∧ ∀ a, Table.look t.ext.cells 0 a = if a / 2 ^ 40 = k.val then 0 else Table.look s.ext.cells 0 a))

/-- Dies, steward and ring ports (R364, R403, R464 to R466): a die whose root PLL loses lock is held in reset; a plan die's cores
come out of it idle but for those that are OFF, retired or reserves, and lose their banks; a port die's serving links go down with
cause 3 and its attempts at training end; a running stage is foul with cause reset; a ready die is released with its crossings
calibrated anew, outside a run with its row regulators settled, and a row with a crossing that failed is lost. A steward that stops
lets the PMBus go; one that restarts makes its device FAULTED with cause 0x15, and one that cannot serves no more. A ring port takes
its link in the mode that it is set to. The model's choices: a steward that restarts lets the bus go until its next poll and a cause
that arises in BOOT waits for CALIBRATING (log entries 56 and 60), and an event that is not due changes nothing (log entry 14). -/
def Obligations.DiesAndSteward : Prop :=
  ∀ (d : DieId) (ready : DieReady) (restarts port : Bool) (mode : Fin 3) (s : State),
    (bitAt (odGet s (od 0x2420 1)) d.val = false → exec (.rootPllLockLoss d) s = .next s)
    ∧ (bitAt (odGet s (od 0x2420 1)) d.val = true → ∃ t, exec (.rootPllLockLoss d) s = .next t
        ∧ (∀ j, j < 4 → bitAt (odGet t (od 0x2420 1)) j = (bitAt (odGet s (od 0x2420 1)) j && decide (j ≠ d.val)))
        ∧ (∀ j, Table.look t.boot.dieReset 0 j = if j = d.val then 1 + now s else Table.look s.boot.dieReset 0 j)
        ∧ t.ext.cells = s.ext.cells ∧ t.time = s.time
        ∧ (runs s = true → t.vote.causes.getLsbD causeReset = true ∧ d.val ∈ t.boot.resetDies)
        ∧ (runs s = false → t.vote.causes = s.vote.causes)
        ∧ (d.val < 2 → (∀ p, p / 156 ≠ d.val → getCore t p = getCore s p) ∧ t.links = s.links
          ∧ ∀ p, p / 156 = d.val → getCore t p = { Core.resetAt p with
              hasBank := false
              state := if (getCore s p).state = .retired then .retired else if (getCore s p).state = .standby then .standby
                else if (getCore s p).state = .off then .off else .idle })
        ∧ (2 ≤ d.val → t.cores = s.cores
          ∧ (∀ l, 24 * (d.val - 2) ≤ l → l < 24 * (d.val - 2) + 24 → linkUp s l = true →
              linkState t l = lsHeld ∧ odGet t (od (linkIndex l) 0x19) = 3 ∧ (getLink t l).downSlots = 0)
          ∧ (∀ l, 24 * (d.val - 2) ≤ l → l < 24 * (d.val - 2) + 24 →
              (linkState s l = lsTraining → linkState t l = lsOff) ∧ (linkState s l = lsRetraining → linkState t l = lsHeld))
          ∧ (d.val = 2 → attachMode t = 0)))
    ∧ (let d := ready.die
      let failed := (ready.failed.map (·.val)).filter fun row => row / 12 = d.val
      (Table.look s.boot.dieReset 0 d.val = 0 → exec (.dieReady ready) s = .next s)
      ∧ (Table.look s.boot.dieReset 0 d.val ≠ 0 → ∃ t, exec (.dieReady ready) s = .next t
        ∧ (∀ j, j < 4 → bitAt (odGet t (od 0x2420 1)) j = (bitAt (odGet s (od 0x2420 1)) j || decide (j = d.val)))
        ∧ (∀ j, Table.look t.boot.dieReset 0 j = if j = d.val then 0 else Table.look s.boot.dieReset 0 j)
        ∧ (failed = [] → odGet t (od 0x2420 2) = 1 ∧ odGet t (od 0x2420 3) = 0
            ∧ t = { s with od := t.od, boot := t.boot, cores := t.cores, fresh := s.fresh + 1 })
        ∧ (failed ≠ [] → odGet t (od 0x2420 2) = 2 ∧ (runs s = true → t.vote.loss = true)
            ∧ ∀ row ∈ failed, odGet t (od (regionClock (rowRegion row)) 4) = 1)
        ∧ (d.val < 2 → runs s = false → .rowRegulators ∈ s.boot.stepsDone → ∀ row, row / 12 = d.val →
            odGet t (od (regionPower (rowRegion row)) 4) = 2)
        ∧ (2 ≤ d.val ∨ runs s = true → t.cores = s.cores)
        ∧ (d.val < 2 → runs s = false → ∀ p, getCore t p = if p / 156 = d.val ∧ (getCore s p).state = .idle then
            { getCore s p with hasBank := true } else getCore s p)))
    ∧ (s.boot.runningFirmware = false → exec (.stewardWatchdog restarts) s = .next s)
    ∧ (s.boot.runningFirmware = true →
      (∃ t, exec (.stewardWatchdog false) s = .next t ∧ t = { s with od := t.od, boot := t.boot, pins := t.pins }
        ∧ t.boot = { s.boot with runningFirmware := false } ∧ t.pins = { s.pins with pmbOwnN := true }
        ∧ odGet t (od 0x2800 9) = 0 ∧ (deviceState s ≠ stBoot → ∀ q, serverAlive t q = false))
      ∧ (∃ t, exec (.stewardWatchdog true) s = .next t ∧ t.cores = s.cores ∧ t.ext = s.ext ∧ t.boot = s.boot
        ∧ t.pins = { s.pins with pmbOwnN := true } ∧ odGet t (od 0x2800 9) = 0
        ∧ (runs s = true → t.vote.stop = true ∧ t.vote.loss = true
            ∧ t.vote.lossRaised = s.vote.lossRaised ++ [(0x15, kindSteward, 0, 0)] ∧ deviceState t = deviceState s)
        ∧ (runs s = false → deviceState s ≠ stFaulted → deviceState s ≠ stBoot →
            deviceState t = stFaulted ∧ odGet t (od 0x4401 1) = 2)
        ∧ (deviceState s = stFaulted → deviceState t = stFaulted
            ∧ (s.escalations.length < 16 → t.escalations.length = s.escalations.length + 1))
        ∧ (deviceState s = stBoot → deviceState t = stBoot ∧ t.vote.loss = true)))
    ∧ (let want := odGet s (od 0x1100 5)
      let link := od 0x1100 (if port then 4 else 3)
      (bitAt (odGet s (od 0x2420 1)) 2 = true → (mode.val = 0 ∨ want = 0 ∨ want = mode.val) →
          ∃ t, exec (.ringPortLinkChange port mode) s = .next t ∧ odGet t link = mode.val ∧ t = { s with od := t.od }
            ∧ ∀ id, id ≠ link → odGet t id = odGet s id)
      ∧ (bitAt (odGet s (od 0x2420 1)) 2 = false ∨ (mode.val ≠ 0 ∧ want ≠ 0 ∧ want ≠ mode.val) →
          exec (.ringPortLinkChange port mode) s = .next s))

/-- Converters, trips and sensors (R222, R243, R405, R412 to R414, R447, R452, R484): a poll enters its readings; a new fault bit or
the tenth poll without an answer is a converter fault, which stops the interfaces or the links that it feeds; an alert polls its
bus at once; a row's first trip in a stage drops its clock one step, a second one holds the device; the shutdown pulls its pin;
a sample enters the higher sensor's temperature and its maximum, and a region at the trip threshold raises the throttle step at every
post, with one trip as it comes there. The model's choices: which status bits are faults (log entry 36), the bus that a poll takes
again and the raise at every post (log entry 60), and an event that is not due changes nothing (log entry 14). -/
def Obligations.ConvertersAndHeat : Prop :=
  ∀ (k j : ConvId) (bus : Bool) (r q : PollReading) (row : RowId) (g : RegionId) (a b : Int) (s : State),
    let i := converterIndex k.val
    let silent := Table.look s.power.pollFailures 0 k.val
    let on := (countFrom 0 16).filter fun k => converterBus k = bus && odGet s (od (converterIndex k) 1) = 1
    let faulty (t : State) : Prop := odGet t (od i 9) = (odGet s (od i 9) + 1) % 2 ^ 32 ∧ t.cores = s.cores
      ∧ (3 ≤ k.val → odGet t (od i 7) = 3)
      ∧ (∀ x ∈ fedInterfaces k.val, odGet t (od (ifaceIndex x) 2) = 2)
      ∧ (∀ l, 12 ≤ k.val → l / 24 = (k.val - 12) / 2 → linkUp s l = true → linkState t l = lsHeld
          ∧ odGet t (od (linkIndex l) 0x19) = 3)
    (odGet s (od i 1) = 0 ∨ s.boot.runningFirmware = false ∨ stewardRuns s = false → exec (.pmbusPoll k r) s = .next s)
    ∧ (odGet s (od i 1) ≠ 0 → s.boot.runningFirmware = true → stewardRuns s = true →
      (∃ t, exec (.pmbusPoll k r) s = .next t ∧ odGet t (od 0x2800 9) = 1 ∧ t.pins = { s.pins with pmbOwnN := false })
      ∧
      (r.answered = true → ∃ t, exec (.pmbusPoll k r) s = .next t
        ∧ odGet t (od i 3) = r.millivolts.toNat ∧ odGet t (od i 4) = r.milliamps.toNat ∧ odGet t (od i 5) = r.temperature.toNat
        ∧ odGet t (od i 6) = r.statusWord.toNat ∧ Table.look t.power.pollFailures 0 k.val = 0
        ∧ (faultStatus r.statusWord.toNat = false ∨ faultStatus (odGet s (od i 6)) = true →
            t = { s with od := t.od, power := t.power, pins := t.pins })
        ∧ (faultStatus r.statusWord.toNat = true → faultStatus (odGet s (od i 6)) = false → faulty t))
      ∧ (r.answered = false → ∃ t, exec (.pmbusPoll k r) s = .next t ∧ Table.look t.power.pollFailures 0 k.val = silent + 1
        ∧ (silent ≠ 9 → t = { s with od := t.od, pins := t.pins, power := { s.power with pollFailures := t.power.pollFailures } }
          ∧ ∀ id, id ≠ od 0x2800 9 → odGet t id = odGet s id)
        ∧ (silent = 9 → faulty t)))
    ∧ (on = [] → ∀ l, exec (.pmbusAlert bus l) s = .next s)
    ∧ (∀ rest, on = k.val :: rest → ∃ t, exec (.pmbusAlert bus [r]) s = .next t ∧ exec (.pmbusPoll k r) s = .next t)
    ∧ (∀ rest, on = k.val :: j.val :: rest → ∃ t, exec (.pmbusPoll k r) s = .next t
        ∧ exec (.pmbusAlert bus [r, q]) s = exec (.pmbusPoll j q) t)
    ∧ (powered s = false → exec (.thermalTrip row) s = .next s ∧ exec .thermalHold s = .next s)
    ∧ (powered s = false ∨ stewardRuns s = false → exec (.sensorSample g a b) s = .next s)
    ∧ (powered s = true →
      (let c := getRow s row.val
        let second := c.tripped = true ∨ 4 ≤ rowStep s row.val
        ∃ t, exec (.thermalTrip row) s = .next t ∧ t.cores = s.cores ∧ t.ext = s.ext
          ∧ odGet t (od 0x2410 6) = (odGet s (od 0x2410 6) + 1) % 2 ^ 32
          ∧ (¬ second → s.stage.phase ≠ .verdict → (getRow t row.val).tripped = true
              ∧ rowStep t row.val = rowStep s row.val + 1 ∧ t.vote = s.vote ∧ t.power.hold = s.power.hold
              ∧ (∀ j, j ≠ row.val → getRow t j = getRow s j)
              ∧ (runs s = true → odGet t (od 0x2410 5) = odGet s (od 0x2410 5)))
          ∧ (second → s.stage.phase ≠ .verdict → s.power.hold = false → t.power.hold = true
              ∧ (∀ j, j < 24 → (getRow t j).stopped = true)
              ∧ (runs s = true → t.vote.causes.getLsbD causeLate = true) ∧ (runs s = false → odGet t (od 0x2410 5) = 4)))
      ∧ (s.power.hold = false → ∃ t, exec .thermalHold s = .next t ∧ t.power.hold = true ∧ t.cores = s.cores
          ∧ (∀ j, j < 24 → (getRow t j).stopped = true)
          ∧ odGet t (od 0x2800 7) = (odGet s (od 0x2800 7) + 1) % 2 ^ 32
          ∧ (runs s = true → t.vote.causes.getLsbD causeLate = true) ∧ (runs s = false → odGet t (od 0x2410 5) = 4))
      ∧ (let m := max a b
        stewardRuns s = true → m < 2 ^ 31 → -2 ^ 31 ≤ m → ∃ t, exec (.sensorSample g a b) s = .next t ∧ t.cores = s.cores ∧ t.ext = s.ext
          ∧ odInt t (od (regionPower g.val) 5) = m
          ∧ odInt t (od (regionPower g.val) 6) = max (odInt s (od (regionPower g.val) 6)) m
          ∧ odGet t (od 0x2800 0x0B) = hottest t
          ∧ (28 ≤ g.val →
            (m < odInt s (od 0x2801 1) → g.val ∉ t.power.hot ∧ t.power.thermalRaise = s.power.thermalRaise)
            ∧ (odInt s (od 0x2801 1) ≤ m → g.val ∈ t.power.hot ∧ t.power.thermalRaise = true
              ∧ odGet t (od (regionPower g.val) 7) = (if g.val ∈ s.power.hot then odGet s (od (regionPower g.val) 7)
                else (odGet s (od (regionPower g.val) 7) + 1) % 2 ^ 32)))))
    ∧ exec .thermalShutdown s = .next { s with pins := { s.pins with thermtripN := false } }

/-- Power and clocks (R242, R406, R409, R411, R417, R484): a sample enters the averages and the energy, a 1 ms average that comes
to exceed the limit trips every row, and a 1 s average over its limit asks for a raise at the post; a cool device at rest for 100 ms gives one throttle step back; a monitor keeps its largest
delay; 256 ticks before the start every row's divider takes the device step, or for a row that is throttled into that stage the next
slower one, with 16 ticks of its clock held low where the step changes; a regulator settles at its target, and one in fault
is a device-level loss. The model's choices: 1,221 samples make 1 ms (log entry 36), the rows trip once for each excess and stage (log
entry 60), and an event that is not due changes nothing (log entry 14). -/
def Obligations.PowerSteps : Prop :=
  ∀ (mw : Nat) (g : RegionId) (m : Fin 6) (taps : BitVec 16) (s : State),
    let p := regionPower g.val
    let key := 6 * g.val + m.val
    let sum (l : List Nat) : Nat := l.foldl (· + ·) 0
    let last := (mw :: s.power.averages).take 1221
    let limit := odGet s (od 0x2800 2) * 1000 * 1221
    let energy := s.power.energyRest + mw * 8192
    (powered s = false → exec (.powerSample mw) s = .next s ∧ exec (.regulatorFault g) s = .next s)
    ∧ (stewardRuns s = false → exec (.powerSample mw) s = .next s)
    ∧ (powered s = true → stewardRuns s = true → ∃ t, exec (.powerSample mw) s = .next t ∧ t.power.averages = last ∧ t.cores = s.cores
        ∧ odGet t (od 0x2800 1) = sum last / 1221 / 1000 % 2 ^ 16
        ∧ odGet t (od 0x2800 0x0A) = (odGet s (od 0x2800 0x0A) + energy / 10 ^ 10) % 2 ^ 64
        ∧ t.power.energyRest = energy % 10 ^ 10
        ∧ t.power.overPeak = decide (limit < sum last)
        ∧ t.power.raiseDue = (s.power.raiseDue || decide (odGet s (od 0x2800 3) * 1000000 < sum t.power.second))
        ∧ (limit < sum last → s.power.overPeak = false →
            odGet t (od 0x2800 5) = (odGet s (od 0x2800 5) + 1) % 2 ^ 32
            ∧ odGet t (od 0x2410 6) = (odGet s (od 0x2410 6) + 24) % 2 ^ 32)
        ∧ (sum last ≤ limit ∨ s.power.overPeak = true → t.rows = s.rows ∧ odGet t (od 0x2800 5) = odGet s (od 0x2800 5)))
    ∧ (let t := odGet s (od 0x2410 5)
      (runs s = false → powered s = true → 0 < t → t < 256 → s.power.restoreBase + 125000000 ≤ now s → allCool s = true →
        ∃ u, exec .throttleRestore s = .next u ∧ odGet u (od 0x2410 5) = t - 1 ∧ u.power.restoreBase = now s
          ∧ u = { s with od := u.od, power := u.power })
      ∧ (runs s = true ∨ now s < s.power.restoreBase + 125000000 → exec .throttleRestore s = .next s))
    ∧ (odGet s (od p 4) ≠ 2 → exec (.monitorSample g m taps) s = .next s)
    ∧ (odGet s (od p 4) = 2 → (isRowRegion g.val = true → rowStep s (regionRow g.val) = deviceStep s
        ∧ (getRow s (regionRow g.val)).stopped = false) → monitorServes s g.val m.val = true →
        ∃ t, exec (.monitorSample g m taps) s = .next t ∧ t = { s with power := { s.power with monitors := t.power.monitors } }
          ∧ ∀ k, (Table.look t.power.monitors 0 k).toNat = if k = key then max (Table.look s.power.monitors 0 k).toNat taps.toNat
              else (Table.look s.power.monitors 0 k).toNat)
    ∧ ((s.stage.phase ≠ .verdict ∧ s.stage.phase ≠ .armed) ∨ now s + 256 < s.stage.nextStart → exec .dividerSwitch s = .next s)
    ∧ ((s.stage.phase = .verdict ∨ s.stage.phase = .armed) → s.stage.nextStart ≤ now s + 256 → deviceStep s < 5 →
        ∃ t, exec .dividerSwitch s = .next t ∧ t = { s with od := t.od, rows := t.rows }
          ∧ ∀ row, row < 24 → rowStep t row = (if (getRow s row).carry then min 4 (deviceStep s + 1) else deviceStep s)
            ∧ (rowStep t row ≠ rowStep s row → (getRow t row).low = 16))
    ∧ (odGet s (od p 4) ≠ 1 → exec (.regulatorSettled g) s = .next s)
    ∧ (odGet s (od p 4) = 1 → ∃ t, exec (.regulatorSettled g) s = .next t ∧ t = { s with od := t.od }
        ∧ odGet t (od p 2) = odGet s (od p 1) % 2 ^ 16 ∧ odGet t (od p 4) = 2
        ∧ ∀ id, id ≠ od p 2 → id ≠ od p 4 → odGet t id = odGet s id)
    ∧ (powered s = true → odGet s (od p 4) ≠ 3 → ∃ t, exec (.regulatorFault g) s = .next t ∧ odGet t (od p 4) = 3
        ∧ t.cores = s.cores ∧ t.ext = s.ext
        ∧ (runs s = true → t.vote.stop = true ∧ t.vote.loss = true ∧ t.vote.lossRaised = s.vote.lossRaised
            ++ [if isRowRegion g.val then (0x10, kindRow, regionRow g.val, 0) else (0x14, kindDie, regionDie g.val, 0)])
        ∧ (runs s = false → deviceState t = stFaulted))

/-- Observation (R430, R431, R436 to R438): an overflow loads the reload value, sets its flag and, by its action, takes a sample or
asks for a message; messages that were held back leave as one; an acknowledgement removes the sample of its number and every earlier
one; an arm takes the operands as they stand, a disarm drops them; the trigger latches the snapshot into its buffer, and a core whose
clock runs has its record to come. The model's choices: an overflow may be named within 255 of the limit (log entry 37), a core's
record is taken at the end of its first cycle from the trigger on (log entry 60), and an event that is not due changes nothing (log
entry 14). -/
def Obligations.Observation : Prop :=
  ∀ (c : Fin 2528) (rq : Requester) (v : BitVec 32) (s : State),
    let p := counterPlace c.val
    let w := odGet s p.config
    let can := cfgEnable w = true ∧ odGet s (od 0x4800 3) = 0 ∧ 2 ^ 48 ≤ odGet s p.value + 255
    (¬ can → exec (.counterOverflow c) s = .next s)
    ∧ (can → odGet s p.reload < 2 ^ 48 → ∃ t, exec (.counterOverflow c) s = .next t ∧ odGet t p.value = odGet s p.reload
        ∧ bitAt (odGet t p.flags) p.k = true ∧ t.cores = s.cores
        ∧ (cfgAction w = 0 → t = { s with od := t.od })
        ∧ (cfgAction w = 2 → s.observe.samples.length < 2048 → ∃ b, t.observe.samples = s.observe.samples ++ [b]
            ∧ b.length = 32 ∧ b.take 4 = leBytes (odGet s (od 0x4800 0x0B)) 4 ∧ (b.drop 4).take 2 = leBytes c.val 2)
        ∧ (cfgAction w = 2 → 2048 ≤ s.observe.samples.length → t.observe = s.observe
            ∧ odGet t (od 0x4800 0x0A) = (odGet s (od 0x4800 0x0A) + 1) % 2 ^ 32)
        ∧ (cfgAction w = 1 → now s < s.observe.overflowEnd → t.observe = { s.observe with overflowMore := true } ∧ t.out = s.out)
        ∧ (cfgAction w = 1 → s.observe.overflowEnd ≤ now s → attachMode s ≠ 0 →
            t.observe = { s.observe with overflowEnd := now s + 65536 } ∧ t.out = .msix (sourceVector s 5) :: s.out))
    ∧ (s.observe.overflowMore = false ∨ now s < s.observe.overflowEnd → exec .overflowInterruptTimer s = .next s)
    ∧ (s.observe.overflowMore = true → s.observe.overflowEnd ≤ now s → ∃ t, exec .overflowInterruptTimer s = .next t
        ∧ t = { s with observe := { s.observe with overflowMore := false, overflowEnd := now s + 65536 }, out := t.out }
        ∧ t.out = if attachMode s = 0 then s.out else .msix (sourceVector s 5) :: s.out)
    ∧ (∀ before x rest, Accepted s rq (od 0x4800 9) (leBytes v.toNat 4) false 0 → rq.path ≠ .bar2 →
        s.observe.samples = before ++ x :: rest → field x 0 4 = v.toNat → (∀ y ∈ before, field y 0 4 ≠ v.toNat) →
        ∃ t, exec (.sampleAcknowledge rq v) s = .next t
          ∧ t = { s with dict := t.dict, observe := { s.observe with samples := rest } })
    ∧ (Accepted s rq (od 0x4800 9) (leBytes v.toNat 4) false 0 → rq.path ≠ .bar2 →
        (∀ y ∈ s.observe.samples, field y 0 4 ≠ v.toNat) →
        ∃ t, exec (.sampleAcknowledge rq v) s = .next t ∧ t = { s with dict := t.dict })
    ∧ (Accepted s rq (od 0x4C00 6) [1] false 0 → ∃ t, exec (.tallyArm rq) s = .next t ∧ odGet t (od 0x4C00 7) = 1
        ∧ t = { s with od := t.od, dict := t.dict, observe := { s.observe with armed := t.observe.armed } }
        ∧ ∃ y, t.observe.armed = some y ∧ y.mode = odGet s (od 0x4C00 1) ∧ y.time = odGet s (od 0x4C00 2)
          ∧ y.stage = odGet s (od 0x4C00 3) ∧ y.offset = odGet s (od 0x4C00 4) ∧ y.number = odGet s (od 0x4C00 5)
          ∧ y.slot = odGet s (od 0x4C00 8) ∧ y.due = none)
    ∧ (Accepted s rq (od 0x4C00 6) [2] false 0 → ∃ t, exec (.tallyDisarm rq) s = .next t ∧ odGet t (od 0x4C00 7) = 0
        ∧ t = { s with od := t.od, dict := t.dict, observe := { s.observe with armed := none } })
    ∧ (s.observe.armed = none → exec .tallyTrigger s = .next s)
    ∧ (∀ y, s.observe.armed = some y → y.mode ≠ 1 → y.due = none → exec .tallyTrigger s = .next s)
    ∧ (∀ y v, s.observe.armed = some y → (y.mode = 1 ∧ v = y.time ∨ y.mode ≠ 1 ∧ y.due = some v) →
      (now s < v → exec .tallyTrigger s = .next s)
      ∧ (v ≤ now s → ∃ t, exec .tallyTrigger s = .next t ∧ odGet t (od 0x4C00 7) = 2
          ∧ t = { s with od := t.od, odb := t.odb, observe := { s.observe with
              armed := none, latching := t.observe.latching, latchInto := od (0x4C01 + y.number % 2) 1 } }
          ∧ (∀ x, x ∈ t.observe.latching ↔ x.1 < 288 ∧ x.2 = latchWait s x.1 ∧ x.2 ≠ 0)
          ∧ odGet t (od (0x4C01 + y.number % 2) 2) = y.number % 2 ^ 32
          ∧ odGetBytes t (od (0x4C01 + y.number % 2) 1) = snapshotBytes s y v
          ∧ ∀ j, j ≠ od (0x4C01 + y.number % 2) 1 → odGetBytes t j = odGetBytes s j))

/-- One tick of the route clock, which the model takes where no command waits (its own choice, log entry 1; R217, R227, R228, R232):
route time counts by one, by two at a skip, and holds once at an insert, which count in OD 2400.09 and OD 2400.0A; the rate enters
the accumulator; a row whose clock runs moves by eight cycles of the root clock, or has one tick less to be held low. Before the PLLs
are locked nothing runs. An access that waits for its memory is served in a tick, and none other changes memory or links (log entry
60). -/
def Obligations.IdleTick : Prop :=
  ∀ s : State, s.pending = [] →
    let one := { s.time with counter := s.time.counter + 1, acc := s.time.acc + s.time.rate, cycles := s.time.cycles + 1 }
    (odGet s (od 0x2420 1) = 0 → step s = .next s)
    ∧ (odGet s (od 0x2420 1) ≠ 0 → ∃ t, step s = .next t ∧ t.pending = []
        ∧ (s.ext.waiting = [] → t.ext = s.ext ∧ t.links = s.links)
        ∧ (s.time.adjust = none → t.time = one)
        ∧ (∀ v skip, s.time.adjust = some (v, skip) →
          (now s < v → t.time = one)
          ∧ (now s = v → skip = true → t.time = { one with counter := s.time.counter + 2, adjust := none }
              ∧ odGet t (od 0x2400 0x0A) = (odGet s (od 0x2400 0x0A) + 1) % 2 ^ 32)
          ∧ (now s = v → skip = false → s.time.holding = false →
              t.time = { one with counter := s.time.counter, holding := true }
              ∧ odGet t (od 0x2400 9) = (odGet s (od 0x2400 9) + 1) % 2 ^ 32)
          ∧ (now s = v → skip = false → s.time.holding = true → t.time = { one with adjust := none, holding := false }))
        ∧ ∀ row, row < 24 → (getRow s row).stopped = false → dieRuns s (row / 12) = true →
            let x := (getRow s row).phase + 8
            let d := rowDivider (rowStep s row)
            getRow t row = if (getRow s row).low = 0 then { getRow s row with phase := if x < d then x else x - d }
              else { getRow s row with low := (getRow s row).low - 1 })

/-- No command and no tick changes a fuse but the firmware floor, and that never falls (R7, R382, R396). -/
def Obligations.FusesNeverFall : Prop :=
  ∀ (f : Fuses) (s t : State), FusesKept f s → step s = .next t → FusesKept f t

/-- Every command and every tick keeps the bounds of the journal, the escalation queue, the sample buffer and the snapshots (R321,
R368, R377, R431). -/
def Obligations.BuffersStayBounded : Prop :=
  ∀ s t : State, BuffersBounded s → step s = .next t → BuffersBounded t

/-- Columns and reset (R28): a row's logical column c runs on physical column c below its skip column and on c + 1 from there on; at
reset the skip column is 12, so physical column 12 serves no logical core. The state after reset meets both invariants above. -/
def Obligations.ColumnsAndReset : Prop :=
  (∀ (s : State) (row c : Nat), row < 24 → c < 12 → let f := odGet s (od (0x3400 + row) 1)
    f ≤ 12 → (c < f → physOf s (12 * row + c) = 13 * row + c) ∧ (f ≤ c → physOf s (12 * row + c) = 13 * row + (c + 1)))
  ∧ (∀ row, row < 24 → odGet State.reset (od (0x3400 + row) 1) = 12 ∧ logicalOf State.reset (13 * row + 12) = none)
  ∧ FusesKept State.reset.fuses State.reset ∧ BuffersBounded State.reset
end

