-- ==== Sys2Proof/Laws/Tables.lean ====
section
/-! SUPPORT. What a table, a memory and a bit field give back: reads after writes, and the canonical form that every write
keeps. -/

namespace Sys2Proof.Machine

variable {α : Type}

@[simp] theorem Table.look_nil (d : α) (k : Nat) : Table.look [] d k = d := rfl

theorem Table.look_drop_same (t : Table α) (d : α) (k : Nat) : Table.look (Table.drop t k) d k = d := by
  induction t with
  | nil => rfl
  | cons e r ih =>
    obtain ⟨j, w⟩ := e
    by_cases h : j = k <;> simp [Table.drop, Table.look, h, ih]

theorem Table.look_drop_other (t : Table α) (d : α) {k j : Nat} (h : j ≠ k) :
    Table.look (Table.drop t k) d j = Table.look t d j := by
  induction t with
  | nil => rfl
  | cons e r ih =>
    obtain ⟨i, w⟩ := e
    by_cases hk : i = k
    · subst hk; simp [Table.drop, Table.look, ih, Ne.symm h]
    · simp only [Table.drop, hk, if_false, Table.look, ih]

theorem Table.look_insert_same (t : Table α) (d : α) (k : Nat) (v : α) (h : ∀ w, (k, w) ∉ t) :
    Table.look (Table.insert t k v) d k = v := by
  induction t with
  | nil => simp [Table.insert, Table.look]
  | cons e r ih =>
    obtain ⟨j, w⟩ := e
    have hr : ∀ w, (k, w) ∉ r := fun w hm => h w (List.mem_cons_of_mem _ hm)
    have hj : j ≠ k := fun e => h w (by subst e; exact List.mem_cons_self)
    by_cases hk : k < j <;> simp [Table.insert, Table.look, hk, hj, ih hr]

theorem Table.look_insert_other (t : Table α) (d : α) {k j : Nat} (v : α) (h : j ≠ k) :
    Table.look (Table.insert t k v) d j = Table.look t d j := by
  induction t with
  | nil => simp [Table.insert, Table.look, Ne.symm h]
  | cons e r ih =>
    obtain ⟨i, w⟩ := e
    by_cases hk : k < i
    · simp [Table.insert, Table.look, hk, Ne.symm h]
    · simp only [Table.insert, hk, if_false, Table.look, ih]

theorem Table.not_mem_drop (t : Table α) (k : Nat) (w : α) : (k, w) ∉ Table.drop t k := by
  induction t with
  | nil => simp [Table.drop]
  | cons e r ih =>
    obtain ⟨j, v⟩ := e
    by_cases h : j = k
    · simp [Table.drop, h, ih]
    · simp [Table.drop, h, ih, Ne.symm h]

/-- A read after a write to the same key gives what was written. -/
@[simp] theorem Table.look_put_same [DecidableEq α] (t : Table α) (d : α) (k : Nat) (v : α) :
    Table.look (Table.put t d k v) d k = v := by
  unfold Table.put
  split
  · next h => rw [Table.look_drop_same, h]
  · exact Table.look_insert_same _ _ _ _ (Table.not_mem_drop t k)

/-- A write leaves every other key alone, whatever it reads as where it is not listed. -/
theorem Table.look_put_other [DecidableEq α] (t : Table α) (d e : α) {k j : Nat} (v : α) (h : j ≠ k) :
    Table.look (Table.put t d k v) e j = Table.look t e j := by
  unfold Table.put
  split
  · exact Table.look_drop_other _ _ h
  · rw [Table.look_insert_other _ _ _ h, Table.look_drop_other _ _ h]

theorem Table.look_put [DecidableEq α] (t : Table α) (d : α) (k j : Nat) (v : α) :
    Table.look (Table.put t d k v) d j = if j = k then v else Table.look t d j := by
  split
  · next h => rw [h, Table.look_put_same]
  · next h => exact Table.look_put_other _ _ _ _ h

/-- A larger lower bound is a stronger canonical form. -/
theorem Table.wfFrom_mono [DecidableEq α] (d : Nat → α) {n m : Nat} (h : n ≤ m) (t : Table α)
    (w : Table.wfFrom d m t = true) : Table.wfFrom d n t = true := by
  cases t with
  | nil => rfl
  | cons e r =>
    obtain ⟨j, v⟩ := e
    simp only [Table.wfFrom, Bool.and_eq_true, decide_eq_true_eq] at w ⊢
    exact ⟨⟨Nat.le_trans h w.1.1, w.1.2⟩, w.2⟩

theorem Table.wfFrom_drop [DecidableEq α] (d : Nat → α) (k : Nat) (t : Table α) :
    ∀ n, Table.wfFrom d n t = true → Table.wfFrom d n (Table.drop t k) = true := by
  induction t with
  | nil => intro n _; rfl
  | cons e r ih =>
    obtain ⟨j, v⟩ := e
    intro n w
    simp only [Table.wfFrom, Bool.and_eq_true, decide_eq_true_eq] at w
    by_cases h : j = k
    · simp only [Table.drop, h, if_true]
      exact Table.wfFrom_mono d (by omega) _ (ih _ w.2)
    · simp only [Table.drop, h, if_false, Table.wfFrom, Bool.and_eq_true, decide_eq_true_eq]
      exact ⟨w.1, ih _ w.2⟩

theorem Table.wfFrom_insert [DecidableEq α] (d : Nat → α) (k : Nat) (v : α) (hv : v ≠ d k) (t : Table α) :
    ∀ n, n ≤ k → (∀ w, (k, w) ∉ t) → Table.wfFrom d n t = true → Table.wfFrom d n (Table.insert t k v) = true := by
  induction t with
  | nil => intro n hn _ _; simp [Table.insert, Table.wfFrom, hn, hv]
  | cons e r ih =>
    obtain ⟨j, u⟩ := e
    intro n hn hm w
    simp only [Table.wfFrom, Bool.and_eq_true, decide_eq_true_eq] at w
    by_cases h : k < j
    · simp only [Table.insert, h, if_true, Table.wfFrom, Bool.and_eq_true, decide_eq_true_eq]
      exact ⟨⟨hn, hv⟩, ⟨h, w.1.2⟩, w.2⟩
    · have hj : j ≠ k := fun e => hm u (by subst e; exact List.mem_cons_self)
      simp only [Table.insert, h, if_false, Table.wfFrom, Bool.and_eq_true, decide_eq_true_eq]
      exact ⟨w.1, ih _ (by omega) (fun w hw => hm w (List.mem_cons_of_mem _ hw)) w.2⟩

/-- A write keeps the canonical form. -/
theorem Table.wf_put [DecidableEq α] (d : Nat → α) (t : Table α) (k : Nat) (v : α) (w : Table.wf d t = true) :
    Table.wf d (Table.put t (d k) k v) = true := by
  unfold Table.put
  split
  · exact Table.wfFrom_drop d k t 0 w
  · next h => exact Table.wfFrom_insert d k v h _ 0 (Nat.zero_le k) (Table.not_mem_drop t k) (Table.wfFrom_drop d k t 0 w)

/-- A table in canonical form lists nothing that reads as its default. -/
theorem Table.wf_nil [DecidableEq α] (d : Nat → α) : Table.wf d ([] : Table α) = true := rfl

/-- Writing bytes keeps a memory's canonical form. -/
theorem Memory.wf_write (d : Byte) (b : Bytes) : ∀ (m : Memory) (a : Nat), Memory.wf d m = true →
    Memory.wf d (Memory.write m d a b) = true := by
  induction b with
  | nil => intro m a h; exact h
  | cons x r ih => intro m a h; exact ih _ _ (Table.wf_put (fun _ => d) m a x h)

/-- Bytes outside a write read as before. -/
theorem Memory.look_write_outside (d : Byte) (b : Bytes) : ∀ (m : Memory) (a k : Nat),
    (k < a ∨ a + b.length ≤ k) → Table.look (Memory.write m d a b) d k = Table.look m d k := by
  induction b with
  | nil => intro m a k _; rfl
  | cons x r ih =>
    intro m a k h
    simp only [List.length_cons] at h
    rw [Memory.write, ih _ _ _ (by omega), Table.look_put_other _ _ _ _ (by omega)]

/-- Bytes of a write read as written. -/
theorem Memory.look_write_inside (d : Byte) (b : Bytes) : ∀ (m : Memory) (a i : Nat), i < b.length →
    Table.look (Memory.write m d a b) d (a + i) = b.getD i 0 := by
  induction b with
  | nil => intro m a i h; simp at h
  | cons x r ih =>
    intro m a i h
    cases i with
    | zero =>
      rw [Memory.write, Memory.look_write_outside _ _ _ _ _ (by omega)]
      simp
    | succ i =>
      have := ih (Table.put m d a x) (a + 1) i (by simpa using h)
      rw [Memory.write, show a + (i + 1) = a + 1 + i by omega, this]
      simp

@[simp] theorem countFrom_length (n : Nat) : ∀ a, (countFrom a n).length = n := by
  induction n with
  | zero => intro a; rfl
  | succ n ih => intro a; simp [countFrom, ih]

theorem mem_countFrom (n : Nat) : ∀ a k, k ∈ countFrom a n ↔ a ≤ k ∧ k < a + n := by
  induction n with
  | zero => intro a k; simp [countFrom]
  | succ n ih => intro a k; simp only [countFrom, List.mem_cons, ih]; omega

@[simp] theorem Memory.read_length (m : Memory) (d : Byte) (a n : Nat) : (Memory.read m d a n).length = n := by
  simp [Memory.read]

/-- Reading back what was written. -/
theorem Memory.read_write_same (d : Byte) (m : Memory) (a : Nat) (b : Bytes) :
    Memory.read (Memory.write m d a b) d a b.length = b := by
  suffices h : ∀ (b : Bytes) (m : Memory) (a : Nat),
      (countFrom a b.length).map (Table.look (Memory.write m d a b) d) = b from h b m a
  intro b
  induction b with
  | nil => intro m a; rfl
  | cons x r ih =>
    intro m a
    simp only [List.length_cons, countFrom, List.map_cons, Memory.write, ih]
    rw [Memory.look_write_outside _ _ _ _ _ (by omega), Table.look_put_same]

@[simp] theorem leBytes_length (n : Nat) : ∀ v, (leBytes v n).length = n := by
  induction n with
  | zero => intro v; rfl
  | succ n ih => intro v; simp [leBytes, ih]

/-- Little-endian bytes stand for the number modulo their width (R11). -/
theorem leNat_leBytes (n : Nat) : ∀ v, leNat (leBytes v n) = v % 256 ^ n := by
  induction n with
  | zero => intro v; simp [leBytes, leNat, Nat.mod_one]
  | succ n ih =>
    intro v
    have h : v % 256 ^ (n + 1) = v % 256 + 256 * (v / 256 % 256 ^ n) := by
      rw [Nat.pow_succ, Nat.mul_comm, Nat.mod_mul]
    simp only [leBytes, leNat, ih, BitVec.toNat_ofNat, h]

end Sys2Proof.Machine
end

