-- ==== Sys2Proof/Laws/State.lean ====
section
/-! SUPPORT. For each named update of the state: what it leaves of every field, and what the updated unit reads as. -/

namespace Sys2Proof.Machine

variable (s : State)


@[simp] theorem odSet_pending (id v : Nat) : (odSet s id v).pending = s.pending := rfl
@[simp] theorem odSet_out (id v : Nat) : (odSet s id v).out = s.out := rfl
@[simp] theorem odSet_fresh (id v : Nat) : (odSet s id v).fresh = s.fresh := rfl
@[simp] theorem odSet_fuses (id v : Nat) : (odSet s id v).fuses = s.fuses := rfl
@[simp] theorem odSet_flash (id v : Nat) : (odSet s id v).flash = s.flash := rfl
@[simp] theorem odSet_pins (id v : Nat) : (odSet s id v).pins = s.pins := rfl
@[simp] theorem odSet_odb (id v : Nat) : (odSet s id v).odb = s.odb := rfl
@[simp] theorem odSet_time (id v : Nat) : (odSet s id v).time = s.time := rfl
@[simp] theorem odSet_rows (id v : Nat) : (odSet s id v).rows = s.rows := rfl
@[simp] theorem odSet_stage (id v : Nat) : (odSet s id v).stage = s.stage := rfl
@[simp] theorem odSet_vote (id v : Nat) : (odSet s id v).vote = s.vote := rfl
@[simp] theorem odSet_strikes (id v : Nat) : (odSet s id v).strikes = s.strikes := rfl
@[simp] theorem odSet_cores (id v : Nat) : (odSet s id v).cores = s.cores := rfl
@[simp] theorem odSet_ext (id v : Nat) : (odSet s id v).ext = s.ext := rfl
@[simp] theorem odSet_engines (id v : Nat) : (odSet s id v).engines = s.engines := rfl
@[simp] theorem odSet_ctx (id v : Nat) : (odSet s id v).ctx = s.ctx := rfl
@[simp] theorem odSet_legs (id v : Nat) : (odSet s id v).legs = s.legs := rfl
@[simp] theorem odSet_links (id v : Nat) : (odSet s id v).links = s.links := rfl
@[simp] theorem odSet_fabric (id v : Nat) : (odSet s id v).fabric = s.fabric := rfl
@[simp] theorem odSet_start (id v : Nat) : (odSet s id v).start = s.start := rfl
@[simp] theorem odSet_host (id v : Nat) : (odSet s id v).host = s.host := rfl
@[simp] theorem odSet_dict (id v : Nat) : (odSet s id v).dict = s.dict := rfl
@[simp] theorem odSet_escalations (id v : Nat) : (odSet s id v).escalations = s.escalations := rfl
@[simp] theorem odSet_deliveredAt (id v : Nat) : (odSet s id v).deliveredAt = s.deliveredAt := rfl
@[simp] theorem odSet_observe (id v : Nat) : (odSet s id v).observe = s.observe := rfl
@[simp] theorem odSet_cargo (id v : Nat) : (odSet s id v).cargo = s.cargo := rfl
@[simp] theorem odSet_power (id v : Nat) : (odSet s id v).power = s.power := rfl
@[simp] theorem odSet_boot (id v : Nat) : (odSet s id v).boot = s.boot := rfl

@[simp] theorem odSetBytes_pending (id : Nat) (b : Bytes) : (odSetBytes s id b).pending = s.pending := rfl
@[simp] theorem odSetBytes_out (id : Nat) (b : Bytes) : (odSetBytes s id b).out = s.out := rfl
@[simp] theorem odSetBytes_fresh (id : Nat) (b : Bytes) : (odSetBytes s id b).fresh = s.fresh := rfl
@[simp] theorem odSetBytes_fuses (id : Nat) (b : Bytes) : (odSetBytes s id b).fuses = s.fuses := rfl
@[simp] theorem odSetBytes_flash (id : Nat) (b : Bytes) : (odSetBytes s id b).flash = s.flash := rfl
@[simp] theorem odSetBytes_pins (id : Nat) (b : Bytes) : (odSetBytes s id b).pins = s.pins := rfl
@[simp] theorem odSetBytes_od (id : Nat) (b : Bytes) : (odSetBytes s id b).od = s.od := rfl
@[simp] theorem odSetBytes_time (id : Nat) (b : Bytes) : (odSetBytes s id b).time = s.time := rfl
@[simp] theorem odSetBytes_rows (id : Nat) (b : Bytes) : (odSetBytes s id b).rows = s.rows := rfl
@[simp] theorem odSetBytes_stage (id : Nat) (b : Bytes) : (odSetBytes s id b).stage = s.stage := rfl
@[simp] theorem odSetBytes_vote (id : Nat) (b : Bytes) : (odSetBytes s id b).vote = s.vote := rfl
@[simp] theorem odSetBytes_strikes (id : Nat) (b : Bytes) : (odSetBytes s id b).strikes = s.strikes := rfl
@[simp] theorem odSetBytes_cores (id : Nat) (b : Bytes) : (odSetBytes s id b).cores = s.cores := rfl
@[simp] theorem odSetBytes_ext (id : Nat) (b : Bytes) : (odSetBytes s id b).ext = s.ext := rfl
@[simp] theorem odSetBytes_engines (id : Nat) (b : Bytes) : (odSetBytes s id b).engines = s.engines := rfl
@[simp] theorem odSetBytes_ctx (id : Nat) (b : Bytes) : (odSetBytes s id b).ctx = s.ctx := rfl
@[simp] theorem odSetBytes_legs (id : Nat) (b : Bytes) : (odSetBytes s id b).legs = s.legs := rfl
@[simp] theorem odSetBytes_links (id : Nat) (b : Bytes) : (odSetBytes s id b).links = s.links := rfl
@[simp] theorem odSetBytes_fabric (id : Nat) (b : Bytes) : (odSetBytes s id b).fabric = s.fabric := rfl
@[simp] theorem odSetBytes_start (id : Nat) (b : Bytes) : (odSetBytes s id b).start = s.start := rfl
@[simp] theorem odSetBytes_host (id : Nat) (b : Bytes) : (odSetBytes s id b).host = s.host := rfl
@[simp] theorem odSetBytes_dict (id : Nat) (b : Bytes) : (odSetBytes s id b).dict = s.dict := rfl
@[simp] theorem odSetBytes_escalations (id : Nat) (b : Bytes) : (odSetBytes s id b).escalations = s.escalations := rfl
@[simp] theorem odSetBytes_deliveredAt (id : Nat) (b : Bytes) : (odSetBytes s id b).deliveredAt = s.deliveredAt := rfl
@[simp] theorem odSetBytes_observe (id : Nat) (b : Bytes) : (odSetBytes s id b).observe = s.observe := rfl
@[simp] theorem odSetBytes_cargo (id : Nat) (b : Bytes) : (odSetBytes s id b).cargo = s.cargo := rfl
@[simp] theorem odSetBytes_power (id : Nat) (b : Bytes) : (odSetBytes s id b).power = s.power := rfl
@[simp] theorem odSetBytes_boot (id : Nat) (b : Bytes) : (odSetBytes s id b).boot = s.boot := rfl

@[simp] theorem setCore_pending (p : Nat) (c : Core) : (setCore s p c).pending = s.pending := rfl
@[simp] theorem setCore_out (p : Nat) (c : Core) : (setCore s p c).out = s.out := rfl
@[simp] theorem setCore_fresh (p : Nat) (c : Core) : (setCore s p c).fresh = s.fresh := rfl
@[simp] theorem setCore_fuses (p : Nat) (c : Core) : (setCore s p c).fuses = s.fuses := rfl
@[simp] theorem setCore_flash (p : Nat) (c : Core) : (setCore s p c).flash = s.flash := rfl
@[simp] theorem setCore_pins (p : Nat) (c : Core) : (setCore s p c).pins = s.pins := rfl
@[simp] theorem setCore_od (p : Nat) (c : Core) : (setCore s p c).od = s.od := rfl
@[simp] theorem setCore_odb (p : Nat) (c : Core) : (setCore s p c).odb = s.odb := rfl
@[simp] theorem setCore_time (p : Nat) (c : Core) : (setCore s p c).time = s.time := rfl
@[simp] theorem setCore_rows (p : Nat) (c : Core) : (setCore s p c).rows = s.rows := rfl
@[simp] theorem setCore_stage (p : Nat) (c : Core) : (setCore s p c).stage = s.stage := rfl
@[simp] theorem setCore_vote (p : Nat) (c : Core) : (setCore s p c).vote = s.vote := rfl
@[simp] theorem setCore_strikes (p : Nat) (c : Core) : (setCore s p c).strikes = s.strikes := rfl
@[simp] theorem setCore_ext (p : Nat) (c : Core) : (setCore s p c).ext = s.ext := rfl
@[simp] theorem setCore_engines (p : Nat) (c : Core) : (setCore s p c).engines = s.engines := rfl
@[simp] theorem setCore_ctx (p : Nat) (c : Core) : (setCore s p c).ctx = s.ctx := rfl
@[simp] theorem setCore_legs (p : Nat) (c : Core) : (setCore s p c).legs = s.legs := rfl
@[simp] theorem setCore_links (p : Nat) (c : Core) : (setCore s p c).links = s.links := rfl
@[simp] theorem setCore_fabric (p : Nat) (c : Core) : (setCore s p c).fabric = s.fabric := rfl
@[simp] theorem setCore_start (p : Nat) (c : Core) : (setCore s p c).start = s.start := rfl
@[simp] theorem setCore_host (p : Nat) (c : Core) : (setCore s p c).host = s.host := rfl
@[simp] theorem setCore_dict (p : Nat) (c : Core) : (setCore s p c).dict = s.dict := rfl
@[simp] theorem setCore_escalations (p : Nat) (c : Core) : (setCore s p c).escalations = s.escalations := rfl
@[simp] theorem setCore_deliveredAt (p : Nat) (c : Core) : (setCore s p c).deliveredAt = s.deliveredAt := rfl
@[simp] theorem setCore_observe (p : Nat) (c : Core) : (setCore s p c).observe = s.observe := rfl
@[simp] theorem setCore_cargo (p : Nat) (c : Core) : (setCore s p c).cargo = s.cargo := rfl
@[simp] theorem setCore_power (p : Nat) (c : Core) : (setCore s p c).power = s.power := rfl
@[simp] theorem setCore_boot (p : Nat) (c : Core) : (setCore s p c).boot = s.boot := rfl

@[simp] theorem setRow_pending (r : Nat) (c : RowClock) : (setRow s r c).pending = s.pending := rfl
@[simp] theorem setRow_out (r : Nat) (c : RowClock) : (setRow s r c).out = s.out := rfl
@[simp] theorem setRow_fresh (r : Nat) (c : RowClock) : (setRow s r c).fresh = s.fresh := rfl
@[simp] theorem setRow_fuses (r : Nat) (c : RowClock) : (setRow s r c).fuses = s.fuses := rfl
@[simp] theorem setRow_flash (r : Nat) (c : RowClock) : (setRow s r c).flash = s.flash := rfl
@[simp] theorem setRow_pins (r : Nat) (c : RowClock) : (setRow s r c).pins = s.pins := rfl
@[simp] theorem setRow_od (r : Nat) (c : RowClock) : (setRow s r c).od = s.od := rfl
@[simp] theorem setRow_odb (r : Nat) (c : RowClock) : (setRow s r c).odb = s.odb := rfl
@[simp] theorem setRow_time (r : Nat) (c : RowClock) : (setRow s r c).time = s.time := rfl
@[simp] theorem setRow_stage (r : Nat) (c : RowClock) : (setRow s r c).stage = s.stage := rfl
@[simp] theorem setRow_vote (r : Nat) (c : RowClock) : (setRow s r c).vote = s.vote := rfl
@[simp] theorem setRow_strikes (r : Nat) (c : RowClock) : (setRow s r c).strikes = s.strikes := rfl
@[simp] theorem setRow_cores (r : Nat) (c : RowClock) : (setRow s r c).cores = s.cores := rfl
@[simp] theorem setRow_ext (r : Nat) (c : RowClock) : (setRow s r c).ext = s.ext := rfl
@[simp] theorem setRow_engines (r : Nat) (c : RowClock) : (setRow s r c).engines = s.engines := rfl
@[simp] theorem setRow_ctx (r : Nat) (c : RowClock) : (setRow s r c).ctx = s.ctx := rfl
@[simp] theorem setRow_legs (r : Nat) (c : RowClock) : (setRow s r c).legs = s.legs := rfl
@[simp] theorem setRow_links (r : Nat) (c : RowClock) : (setRow s r c).links = s.links := rfl
@[simp] theorem setRow_fabric (r : Nat) (c : RowClock) : (setRow s r c).fabric = s.fabric := rfl
@[simp] theorem setRow_start (r : Nat) (c : RowClock) : (setRow s r c).start = s.start := rfl
@[simp] theorem setRow_host (r : Nat) (c : RowClock) : (setRow s r c).host = s.host := rfl
@[simp] theorem setRow_dict (r : Nat) (c : RowClock) : (setRow s r c).dict = s.dict := rfl
@[simp] theorem setRow_escalations (r : Nat) (c : RowClock) : (setRow s r c).escalations = s.escalations := rfl
@[simp] theorem setRow_deliveredAt (r : Nat) (c : RowClock) : (setRow s r c).deliveredAt = s.deliveredAt := rfl
@[simp] theorem setRow_observe (r : Nat) (c : RowClock) : (setRow s r c).observe = s.observe := rfl
@[simp] theorem setRow_cargo (r : Nat) (c : RowClock) : (setRow s r c).cargo = s.cargo := rfl
@[simp] theorem setRow_power (r : Nat) (c : RowClock) : (setRow s r c).power = s.power := rfl
@[simp] theorem setRow_boot (r : Nat) (c : RowClock) : (setRow s r c).boot = s.boot := rfl

@[simp] theorem setLink_pending (l : Nat) (k : Link) : (setLink s l k).pending = s.pending := rfl
@[simp] theorem setLink_out (l : Nat) (k : Link) : (setLink s l k).out = s.out := rfl
@[simp] theorem setLink_fresh (l : Nat) (k : Link) : (setLink s l k).fresh = s.fresh := rfl
@[simp] theorem setLink_fuses (l : Nat) (k : Link) : (setLink s l k).fuses = s.fuses := rfl
@[simp] theorem setLink_flash (l : Nat) (k : Link) : (setLink s l k).flash = s.flash := rfl
@[simp] theorem setLink_pins (l : Nat) (k : Link) : (setLink s l k).pins = s.pins := rfl
@[simp] theorem setLink_od (l : Nat) (k : Link) : (setLink s l k).od = s.od := rfl
@[simp] theorem setLink_odb (l : Nat) (k : Link) : (setLink s l k).odb = s.odb := rfl
@[simp] theorem setLink_time (l : Nat) (k : Link) : (setLink s l k).time = s.time := rfl
@[simp] theorem setLink_rows (l : Nat) (k : Link) : (setLink s l k).rows = s.rows := rfl
@[simp] theorem setLink_stage (l : Nat) (k : Link) : (setLink s l k).stage = s.stage := rfl
@[simp] theorem setLink_vote (l : Nat) (k : Link) : (setLink s l k).vote = s.vote := rfl
@[simp] theorem setLink_strikes (l : Nat) (k : Link) : (setLink s l k).strikes = s.strikes := rfl
@[simp] theorem setLink_cores (l : Nat) (k : Link) : (setLink s l k).cores = s.cores := rfl
@[simp] theorem setLink_ext (l : Nat) (k : Link) : (setLink s l k).ext = s.ext := rfl
@[simp] theorem setLink_engines (l : Nat) (k : Link) : (setLink s l k).engines = s.engines := rfl
@[simp] theorem setLink_ctx (l : Nat) (k : Link) : (setLink s l k).ctx = s.ctx := rfl
@[simp] theorem setLink_legs (l : Nat) (k : Link) : (setLink s l k).legs = s.legs := rfl
@[simp] theorem setLink_fabric (l : Nat) (k : Link) : (setLink s l k).fabric = s.fabric := rfl
@[simp] theorem setLink_start (l : Nat) (k : Link) : (setLink s l k).start = s.start := rfl
@[simp] theorem setLink_host (l : Nat) (k : Link) : (setLink s l k).host = s.host := rfl
@[simp] theorem setLink_dict (l : Nat) (k : Link) : (setLink s l k).dict = s.dict := rfl
@[simp] theorem setLink_escalations (l : Nat) (k : Link) : (setLink s l k).escalations = s.escalations := rfl
@[simp] theorem setLink_deliveredAt (l : Nat) (k : Link) : (setLink s l k).deliveredAt = s.deliveredAt := rfl
@[simp] theorem setLink_observe (l : Nat) (k : Link) : (setLink s l k).observe = s.observe := rfl
@[simp] theorem setLink_cargo (l : Nat) (k : Link) : (setLink s l k).cargo = s.cargo := rfl
@[simp] theorem setLink_power (l : Nat) (k : Link) : (setLink s l k).power = s.power := rfl
@[simp] theorem setLink_boot (l : Nat) (k : Link) : (setLink s l k).boot = s.boot := rfl

@[simp] theorem setEngine_pending (g : Nat) (e : Engine) : (setEngine s g e).pending = s.pending := rfl
@[simp] theorem setEngine_out (g : Nat) (e : Engine) : (setEngine s g e).out = s.out := rfl
@[simp] theorem setEngine_fresh (g : Nat) (e : Engine) : (setEngine s g e).fresh = s.fresh := rfl
@[simp] theorem setEngine_fuses (g : Nat) (e : Engine) : (setEngine s g e).fuses = s.fuses := rfl
@[simp] theorem setEngine_flash (g : Nat) (e : Engine) : (setEngine s g e).flash = s.flash := rfl
@[simp] theorem setEngine_pins (g : Nat) (e : Engine) : (setEngine s g e).pins = s.pins := rfl
@[simp] theorem setEngine_od (g : Nat) (e : Engine) : (setEngine s g e).od = s.od := rfl
@[simp] theorem setEngine_odb (g : Nat) (e : Engine) : (setEngine s g e).odb = s.odb := rfl
@[simp] theorem setEngine_time (g : Nat) (e : Engine) : (setEngine s g e).time = s.time := rfl
@[simp] theorem setEngine_rows (g : Nat) (e : Engine) : (setEngine s g e).rows = s.rows := rfl
@[simp] theorem setEngine_stage (g : Nat) (e : Engine) : (setEngine s g e).stage = s.stage := rfl
@[simp] theorem setEngine_vote (g : Nat) (e : Engine) : (setEngine s g e).vote = s.vote := rfl
@[simp] theorem setEngine_strikes (g : Nat) (e : Engine) : (setEngine s g e).strikes = s.strikes := rfl
@[simp] theorem setEngine_cores (g : Nat) (e : Engine) : (setEngine s g e).cores = s.cores := rfl
@[simp] theorem setEngine_ext (g : Nat) (e : Engine) : (setEngine s g e).ext = s.ext := rfl
@[simp] theorem setEngine_ctx (g : Nat) (e : Engine) : (setEngine s g e).ctx = s.ctx := rfl
@[simp] theorem setEngine_legs (g : Nat) (e : Engine) : (setEngine s g e).legs = s.legs := rfl
@[simp] theorem setEngine_links (g : Nat) (e : Engine) : (setEngine s g e).links = s.links := rfl
@[simp] theorem setEngine_fabric (g : Nat) (e : Engine) : (setEngine s g e).fabric = s.fabric := rfl
@[simp] theorem setEngine_start (g : Nat) (e : Engine) : (setEngine s g e).start = s.start := rfl
@[simp] theorem setEngine_host (g : Nat) (e : Engine) : (setEngine s g e).host = s.host := rfl
@[simp] theorem setEngine_dict (g : Nat) (e : Engine) : (setEngine s g e).dict = s.dict := rfl
@[simp] theorem setEngine_escalations (g : Nat) (e : Engine) : (setEngine s g e).escalations = s.escalations := rfl
@[simp] theorem setEngine_deliveredAt (g : Nat) (e : Engine) : (setEngine s g e).deliveredAt = s.deliveredAt := rfl
@[simp] theorem setEngine_observe (g : Nat) (e : Engine) : (setEngine s g e).observe = s.observe := rfl
@[simp] theorem setEngine_cargo (g : Nat) (e : Engine) : (setEngine s g e).cargo = s.cargo := rfl
@[simp] theorem setEngine_power (g : Nat) (e : Engine) : (setEngine s g e).power = s.power := rfl
@[simp] theorem setEngine_boot (g : Nat) (e : Engine) : (setEngine s g e).boot = s.boot := rfl

@[simp] theorem setContext_pending (c : Nat) (x : Context) : (setContext s c x).pending = s.pending := rfl
@[simp] theorem setContext_out (c : Nat) (x : Context) : (setContext s c x).out = s.out := rfl
@[simp] theorem setContext_fresh (c : Nat) (x : Context) : (setContext s c x).fresh = s.fresh := rfl
@[simp] theorem setContext_fuses (c : Nat) (x : Context) : (setContext s c x).fuses = s.fuses := rfl
@[simp] theorem setContext_flash (c : Nat) (x : Context) : (setContext s c x).flash = s.flash := rfl
@[simp] theorem setContext_pins (c : Nat) (x : Context) : (setContext s c x).pins = s.pins := rfl
@[simp] theorem setContext_od (c : Nat) (x : Context) : (setContext s c x).od = s.od := rfl
@[simp] theorem setContext_odb (c : Nat) (x : Context) : (setContext s c x).odb = s.odb := rfl
@[simp] theorem setContext_time (c : Nat) (x : Context) : (setContext s c x).time = s.time := rfl
@[simp] theorem setContext_rows (c : Nat) (x : Context) : (setContext s c x).rows = s.rows := rfl
@[simp] theorem setContext_stage (c : Nat) (x : Context) : (setContext s c x).stage = s.stage := rfl
@[simp] theorem setContext_vote (c : Nat) (x : Context) : (setContext s c x).vote = s.vote := rfl
@[simp] theorem setContext_strikes (c : Nat) (x : Context) : (setContext s c x).strikes = s.strikes := rfl
@[simp] theorem setContext_cores (c : Nat) (x : Context) : (setContext s c x).cores = s.cores := rfl
@[simp] theorem setContext_ext (c : Nat) (x : Context) : (setContext s c x).ext = s.ext := rfl
@[simp] theorem setContext_engines (c : Nat) (x : Context) : (setContext s c x).engines = s.engines := rfl
@[simp] theorem setContext_legs (c : Nat) (x : Context) : (setContext s c x).legs = s.legs := rfl
@[simp] theorem setContext_links (c : Nat) (x : Context) : (setContext s c x).links = s.links := rfl
@[simp] theorem setContext_fabric (c : Nat) (x : Context) : (setContext s c x).fabric = s.fabric := rfl
@[simp] theorem setContext_start (c : Nat) (x : Context) : (setContext s c x).start = s.start := rfl
@[simp] theorem setContext_host (c : Nat) (x : Context) : (setContext s c x).host = s.host := rfl
@[simp] theorem setContext_dict (c : Nat) (x : Context) : (setContext s c x).dict = s.dict := rfl
@[simp] theorem setContext_escalations (c : Nat) (x : Context) : (setContext s c x).escalations = s.escalations := rfl
@[simp] theorem setContext_deliveredAt (c : Nat) (x : Context) : (setContext s c x).deliveredAt = s.deliveredAt := rfl
@[simp] theorem setContext_observe (c : Nat) (x : Context) : (setContext s c x).observe = s.observe := rfl
@[simp] theorem setContext_cargo (c : Nat) (x : Context) : (setContext s c x).cargo = s.cargo := rfl
@[simp] theorem setContext_power (c : Nat) (x : Context) : (setContext s c x).power = s.power := rfl
@[simp] theorem setContext_boot (c : Nat) (x : Context) : (setContext s c x).boot = s.boot := rfl

@[simp] theorem setLeg_pending (k : Nat) (l : Leg) : (setLeg s k l).pending = s.pending := rfl
@[simp] theorem setLeg_out (k : Nat) (l : Leg) : (setLeg s k l).out = s.out := rfl
@[simp] theorem setLeg_fresh (k : Nat) (l : Leg) : (setLeg s k l).fresh = s.fresh := rfl
@[simp] theorem setLeg_fuses (k : Nat) (l : Leg) : (setLeg s k l).fuses = s.fuses := rfl
@[simp] theorem setLeg_flash (k : Nat) (l : Leg) : (setLeg s k l).flash = s.flash := rfl
@[simp] theorem setLeg_pins (k : Nat) (l : Leg) : (setLeg s k l).pins = s.pins := rfl
@[simp] theorem setLeg_od (k : Nat) (l : Leg) : (setLeg s k l).od = s.od := rfl
@[simp] theorem setLeg_odb (k : Nat) (l : Leg) : (setLeg s k l).odb = s.odb := rfl
@[simp] theorem setLeg_time (k : Nat) (l : Leg) : (setLeg s k l).time = s.time := rfl
@[simp] theorem setLeg_rows (k : Nat) (l : Leg) : (setLeg s k l).rows = s.rows := rfl
@[simp] theorem setLeg_stage (k : Nat) (l : Leg) : (setLeg s k l).stage = s.stage := rfl
@[simp] theorem setLeg_vote (k : Nat) (l : Leg) : (setLeg s k l).vote = s.vote := rfl
@[simp] theorem setLeg_strikes (k : Nat) (l : Leg) : (setLeg s k l).strikes = s.strikes := rfl
@[simp] theorem setLeg_cores (k : Nat) (l : Leg) : (setLeg s k l).cores = s.cores := rfl
@[simp] theorem setLeg_ext (k : Nat) (l : Leg) : (setLeg s k l).ext = s.ext := rfl
@[simp] theorem setLeg_engines (k : Nat) (l : Leg) : (setLeg s k l).engines = s.engines := rfl
@[simp] theorem setLeg_ctx (k : Nat) (l : Leg) : (setLeg s k l).ctx = s.ctx := rfl
@[simp] theorem setLeg_links (k : Nat) (l : Leg) : (setLeg s k l).links = s.links := rfl
@[simp] theorem setLeg_fabric (k : Nat) (l : Leg) : (setLeg s k l).fabric = s.fabric := rfl
@[simp] theorem setLeg_start (k : Nat) (l : Leg) : (setLeg s k l).start = s.start := rfl
@[simp] theorem setLeg_host (k : Nat) (l : Leg) : (setLeg s k l).host = s.host := rfl
@[simp] theorem setLeg_dict (k : Nat) (l : Leg) : (setLeg s k l).dict = s.dict := rfl
@[simp] theorem setLeg_escalations (k : Nat) (l : Leg) : (setLeg s k l).escalations = s.escalations := rfl
@[simp] theorem setLeg_deliveredAt (k : Nat) (l : Leg) : (setLeg s k l).deliveredAt = s.deliveredAt := rfl
@[simp] theorem setLeg_observe (k : Nat) (l : Leg) : (setLeg s k l).observe = s.observe := rfl
@[simp] theorem setLeg_cargo (k : Nat) (l : Leg) : (setLeg s k l).cargo = s.cargo := rfl
@[simp] theorem setLeg_power (k : Nat) (l : Leg) : (setLeg s k l).power = s.power := rfl
@[simp] theorem setLeg_boot (k : Nat) (l : Leg) : (setLeg s k l).boot = s.boot := rfl

@[simp] theorem setWindow_pending (a : Nat) (w : Window) : (setWindow s a w).pending = s.pending := rfl
@[simp] theorem setWindow_out (a : Nat) (w : Window) : (setWindow s a w).out = s.out := rfl
@[simp] theorem setWindow_fresh (a : Nat) (w : Window) : (setWindow s a w).fresh = s.fresh := rfl
@[simp] theorem setWindow_fuses (a : Nat) (w : Window) : (setWindow s a w).fuses = s.fuses := rfl
@[simp] theorem setWindow_flash (a : Nat) (w : Window) : (setWindow s a w).flash = s.flash := rfl
@[simp] theorem setWindow_pins (a : Nat) (w : Window) : (setWindow s a w).pins = s.pins := rfl
@[simp] theorem setWindow_od (a : Nat) (w : Window) : (setWindow s a w).od = s.od := rfl
@[simp] theorem setWindow_odb (a : Nat) (w : Window) : (setWindow s a w).odb = s.odb := rfl
@[simp] theorem setWindow_time (a : Nat) (w : Window) : (setWindow s a w).time = s.time := rfl
@[simp] theorem setWindow_rows (a : Nat) (w : Window) : (setWindow s a w).rows = s.rows := rfl
@[simp] theorem setWindow_stage (a : Nat) (w : Window) : (setWindow s a w).stage = s.stage := rfl
@[simp] theorem setWindow_vote (a : Nat) (w : Window) : (setWindow s a w).vote = s.vote := rfl
@[simp] theorem setWindow_strikes (a : Nat) (w : Window) : (setWindow s a w).strikes = s.strikes := rfl
@[simp] theorem setWindow_cores (a : Nat) (w : Window) : (setWindow s a w).cores = s.cores := rfl
@[simp] theorem setWindow_ext (a : Nat) (w : Window) : (setWindow s a w).ext = s.ext := rfl
@[simp] theorem setWindow_engines (a : Nat) (w : Window) : (setWindow s a w).engines = s.engines := rfl
@[simp] theorem setWindow_ctx (a : Nat) (w : Window) : (setWindow s a w).ctx = s.ctx := rfl
@[simp] theorem setWindow_legs (a : Nat) (w : Window) : (setWindow s a w).legs = s.legs := rfl
@[simp] theorem setWindow_links (a : Nat) (w : Window) : (setWindow s a w).links = s.links := rfl
@[simp] theorem setWindow_start (a : Nat) (w : Window) : (setWindow s a w).start = s.start := rfl
@[simp] theorem setWindow_host (a : Nat) (w : Window) : (setWindow s a w).host = s.host := rfl
@[simp] theorem setWindow_dict (a : Nat) (w : Window) : (setWindow s a w).dict = s.dict := rfl
@[simp] theorem setWindow_escalations (a : Nat) (w : Window) : (setWindow s a w).escalations = s.escalations := rfl
@[simp] theorem setWindow_deliveredAt (a : Nat) (w : Window) : (setWindow s a w).deliveredAt = s.deliveredAt := rfl
@[simp] theorem setWindow_observe (a : Nat) (w : Window) : (setWindow s a w).observe = s.observe := rfl
@[simp] theorem setWindow_cargo (a : Nat) (w : Window) : (setWindow s a w).cargo = s.cargo := rfl
@[simp] theorem setWindow_power (a : Nat) (w : Window) : (setWindow s a w).power = s.power := rfl
@[simp] theorem setWindow_boot (a : Nat) (w : Window) : (setWindow s a w).boot = s.boot := rfl

@[simp] theorem setCargo_pending (e : Nat) (c : CargoEntry) : (setCargo s e c).pending = s.pending := rfl
@[simp] theorem setCargo_out (e : Nat) (c : CargoEntry) : (setCargo s e c).out = s.out := rfl
@[simp] theorem setCargo_fresh (e : Nat) (c : CargoEntry) : (setCargo s e c).fresh = s.fresh := rfl
@[simp] theorem setCargo_fuses (e : Nat) (c : CargoEntry) : (setCargo s e c).fuses = s.fuses := rfl
@[simp] theorem setCargo_flash (e : Nat) (c : CargoEntry) : (setCargo s e c).flash = s.flash := rfl
@[simp] theorem setCargo_pins (e : Nat) (c : CargoEntry) : (setCargo s e c).pins = s.pins := rfl
@[simp] theorem setCargo_od (e : Nat) (c : CargoEntry) : (setCargo s e c).od = s.od := rfl
@[simp] theorem setCargo_odb (e : Nat) (c : CargoEntry) : (setCargo s e c).odb = s.odb := rfl
@[simp] theorem setCargo_time (e : Nat) (c : CargoEntry) : (setCargo s e c).time = s.time := rfl
@[simp] theorem setCargo_rows (e : Nat) (c : CargoEntry) : (setCargo s e c).rows = s.rows := rfl
@[simp] theorem setCargo_stage (e : Nat) (c : CargoEntry) : (setCargo s e c).stage = s.stage := rfl
@[simp] theorem setCargo_vote (e : Nat) (c : CargoEntry) : (setCargo s e c).vote = s.vote := rfl
@[simp] theorem setCargo_strikes (e : Nat) (c : CargoEntry) : (setCargo s e c).strikes = s.strikes := rfl
@[simp] theorem setCargo_cores (e : Nat) (c : CargoEntry) : (setCargo s e c).cores = s.cores := rfl
@[simp] theorem setCargo_ext (e : Nat) (c : CargoEntry) : (setCargo s e c).ext = s.ext := rfl
@[simp] theorem setCargo_engines (e : Nat) (c : CargoEntry) : (setCargo s e c).engines = s.engines := rfl
@[simp] theorem setCargo_ctx (e : Nat) (c : CargoEntry) : (setCargo s e c).ctx = s.ctx := rfl
@[simp] theorem setCargo_legs (e : Nat) (c : CargoEntry) : (setCargo s e c).legs = s.legs := rfl
@[simp] theorem setCargo_links (e : Nat) (c : CargoEntry) : (setCargo s e c).links = s.links := rfl
@[simp] theorem setCargo_fabric (e : Nat) (c : CargoEntry) : (setCargo s e c).fabric = s.fabric := rfl
@[simp] theorem setCargo_start (e : Nat) (c : CargoEntry) : (setCargo s e c).start = s.start := rfl
@[simp] theorem setCargo_host (e : Nat) (c : CargoEntry) : (setCargo s e c).host = s.host := rfl
@[simp] theorem setCargo_dict (e : Nat) (c : CargoEntry) : (setCargo s e c).dict = s.dict := rfl
@[simp] theorem setCargo_escalations (e : Nat) (c : CargoEntry) : (setCargo s e c).escalations = s.escalations := rfl
@[simp] theorem setCargo_deliveredAt (e : Nat) (c : CargoEntry) : (setCargo s e c).deliveredAt = s.deliveredAt := rfl
@[simp] theorem setCargo_observe (e : Nat) (c : CargoEntry) : (setCargo s e c).observe = s.observe := rfl
@[simp] theorem setCargo_power (e : Nat) (c : CargoEntry) : (setCargo s e c).power = s.power := rfl
@[simp] theorem setCargo_boot (e : Nat) (c : CargoEntry) : (setCargo s e c).boot = s.boot := rfl

@[simp] theorem setStrikes_pending (u : Nat) (h : Strikes) : (setStrikes s u h).pending = s.pending := rfl
@[simp] theorem setStrikes_out (u : Nat) (h : Strikes) : (setStrikes s u h).out = s.out := rfl
@[simp] theorem setStrikes_fresh (u : Nat) (h : Strikes) : (setStrikes s u h).fresh = s.fresh := rfl
@[simp] theorem setStrikes_fuses (u : Nat) (h : Strikes) : (setStrikes s u h).fuses = s.fuses := rfl
@[simp] theorem setStrikes_flash (u : Nat) (h : Strikes) : (setStrikes s u h).flash = s.flash := rfl
@[simp] theorem setStrikes_pins (u : Nat) (h : Strikes) : (setStrikes s u h).pins = s.pins := rfl
@[simp] theorem setStrikes_od (u : Nat) (h : Strikes) : (setStrikes s u h).od = s.od := rfl
@[simp] theorem setStrikes_odb (u : Nat) (h : Strikes) : (setStrikes s u h).odb = s.odb := rfl
@[simp] theorem setStrikes_time (u : Nat) (h : Strikes) : (setStrikes s u h).time = s.time := rfl
@[simp] theorem setStrikes_rows (u : Nat) (h : Strikes) : (setStrikes s u h).rows = s.rows := rfl
@[simp] theorem setStrikes_stage (u : Nat) (h : Strikes) : (setStrikes s u h).stage = s.stage := rfl
@[simp] theorem setStrikes_vote (u : Nat) (h : Strikes) : (setStrikes s u h).vote = s.vote := rfl
@[simp] theorem setStrikes_cores (u : Nat) (h : Strikes) : (setStrikes s u h).cores = s.cores := rfl
@[simp] theorem setStrikes_ext (u : Nat) (h : Strikes) : (setStrikes s u h).ext = s.ext := rfl
@[simp] theorem setStrikes_engines (u : Nat) (h : Strikes) : (setStrikes s u h).engines = s.engines := rfl
@[simp] theorem setStrikes_ctx (u : Nat) (h : Strikes) : (setStrikes s u h).ctx = s.ctx := rfl
@[simp] theorem setStrikes_legs (u : Nat) (h : Strikes) : (setStrikes s u h).legs = s.legs := rfl
@[simp] theorem setStrikes_links (u : Nat) (h : Strikes) : (setStrikes s u h).links = s.links := rfl
@[simp] theorem setStrikes_fabric (u : Nat) (h : Strikes) : (setStrikes s u h).fabric = s.fabric := rfl
@[simp] theorem setStrikes_start (u : Nat) (h : Strikes) : (setStrikes s u h).start = s.start := rfl
@[simp] theorem setStrikes_host (u : Nat) (h : Strikes) : (setStrikes s u h).host = s.host := rfl
@[simp] theorem setStrikes_dict (u : Nat) (h : Strikes) : (setStrikes s u h).dict = s.dict := rfl
@[simp] theorem setStrikes_escalations (u : Nat) (h : Strikes) : (setStrikes s u h).escalations = s.escalations := rfl
@[simp] theorem setStrikes_deliveredAt (u : Nat) (h : Strikes) : (setStrikes s u h).deliveredAt = s.deliveredAt := rfl
@[simp] theorem setStrikes_observe (u : Nat) (h : Strikes) : (setStrikes s u h).observe = s.observe := rfl
@[simp] theorem setStrikes_cargo (u : Nat) (h : Strikes) : (setStrikes s u h).cargo = s.cargo := rfl
@[simp] theorem setStrikes_power (u : Nat) (h : Strikes) : (setStrikes s u h).power = s.power := rfl
@[simp] theorem setStrikes_boot (u : Nat) (h : Strikes) : (setStrikes s u h).boot = s.boot := rfl

@[simp] theorem emit_pending (o : Output) : (emit s o).pending = s.pending := rfl
@[simp] theorem emit_fresh (o : Output) : (emit s o).fresh = s.fresh := rfl
@[simp] theorem emit_fuses (o : Output) : (emit s o).fuses = s.fuses := rfl
@[simp] theorem emit_flash (o : Output) : (emit s o).flash = s.flash := rfl
@[simp] theorem emit_pins (o : Output) : (emit s o).pins = s.pins := rfl
@[simp] theorem emit_od (o : Output) : (emit s o).od = s.od := rfl
@[simp] theorem emit_odb (o : Output) : (emit s o).odb = s.odb := rfl
@[simp] theorem emit_time (o : Output) : (emit s o).time = s.time := rfl
@[simp] theorem emit_rows (o : Output) : (emit s o).rows = s.rows := rfl
@[simp] theorem emit_stage (o : Output) : (emit s o).stage = s.stage := rfl
@[simp] theorem emit_vote (o : Output) : (emit s o).vote = s.vote := rfl
@[simp] theorem emit_strikes (o : Output) : (emit s o).strikes = s.strikes := rfl
@[simp] theorem emit_cores (o : Output) : (emit s o).cores = s.cores := rfl
@[simp] theorem emit_ext (o : Output) : (emit s o).ext = s.ext := rfl
@[simp] theorem emit_engines (o : Output) : (emit s o).engines = s.engines := rfl
@[simp] theorem emit_ctx (o : Output) : (emit s o).ctx = s.ctx := rfl
@[simp] theorem emit_legs (o : Output) : (emit s o).legs = s.legs := rfl
@[simp] theorem emit_links (o : Output) : (emit s o).links = s.links := rfl
@[simp] theorem emit_fabric (o : Output) : (emit s o).fabric = s.fabric := rfl
@[simp] theorem emit_start (o : Output) : (emit s o).start = s.start := rfl
@[simp] theorem emit_host (o : Output) : (emit s o).host = s.host := rfl
@[simp] theorem emit_dict (o : Output) : (emit s o).dict = s.dict := rfl
@[simp] theorem emit_escalations (o : Output) : (emit s o).escalations = s.escalations := rfl
@[simp] theorem emit_deliveredAt (o : Output) : (emit s o).deliveredAt = s.deliveredAt := rfl
@[simp] theorem emit_observe (o : Output) : (emit s o).observe = s.observe := rfl
@[simp] theorem emit_cargo (o : Output) : (emit s o).cargo = s.cargo := rfl
@[simp] theorem emit_power (o : Output) : (emit s o).power = s.power := rfl
@[simp] theorem emit_boot (o : Output) : (emit s o).boot = s.boot := rfl

@[simp] theorem setCause_pending (bit : Nat) : (setCause s bit).pending = s.pending := rfl
@[simp] theorem setCause_out (bit : Nat) : (setCause s bit).out = s.out := rfl
@[simp] theorem setCause_fresh (bit : Nat) : (setCause s bit).fresh = s.fresh := rfl
@[simp] theorem setCause_fuses (bit : Nat) : (setCause s bit).fuses = s.fuses := rfl
@[simp] theorem setCause_flash (bit : Nat) : (setCause s bit).flash = s.flash := rfl
@[simp] theorem setCause_pins (bit : Nat) : (setCause s bit).pins = s.pins := rfl
@[simp] theorem setCause_od (bit : Nat) : (setCause s bit).od = s.od := rfl
@[simp] theorem setCause_odb (bit : Nat) : (setCause s bit).odb = s.odb := rfl
@[simp] theorem setCause_time (bit : Nat) : (setCause s bit).time = s.time := rfl
@[simp] theorem setCause_rows (bit : Nat) : (setCause s bit).rows = s.rows := rfl
@[simp] theorem setCause_stage (bit : Nat) : (setCause s bit).stage = s.stage := rfl
@[simp] theorem setCause_strikes (bit : Nat) : (setCause s bit).strikes = s.strikes := rfl
@[simp] theorem setCause_cores (bit : Nat) : (setCause s bit).cores = s.cores := rfl
@[simp] theorem setCause_ext (bit : Nat) : (setCause s bit).ext = s.ext := rfl
@[simp] theorem setCause_engines (bit : Nat) : (setCause s bit).engines = s.engines := rfl
@[simp] theorem setCause_ctx (bit : Nat) : (setCause s bit).ctx = s.ctx := rfl
@[simp] theorem setCause_legs (bit : Nat) : (setCause s bit).legs = s.legs := rfl
@[simp] theorem setCause_links (bit : Nat) : (setCause s bit).links = s.links := rfl
@[simp] theorem setCause_fabric (bit : Nat) : (setCause s bit).fabric = s.fabric := rfl
@[simp] theorem setCause_start (bit : Nat) : (setCause s bit).start = s.start := rfl
@[simp] theorem setCause_host (bit : Nat) : (setCause s bit).host = s.host := rfl
@[simp] theorem setCause_dict (bit : Nat) : (setCause s bit).dict = s.dict := rfl
@[simp] theorem setCause_escalations (bit : Nat) : (setCause s bit).escalations = s.escalations := rfl
@[simp] theorem setCause_deliveredAt (bit : Nat) : (setCause s bit).deliveredAt = s.deliveredAt := rfl
@[simp] theorem setCause_observe (bit : Nat) : (setCause s bit).observe = s.observe := rfl
@[simp] theorem setCause_cargo (bit : Nat) : (setCause s bit).cargo = s.cargo := rfl
@[simp] theorem setCause_power (bit : Nat) : (setCause s bit).power = s.power := rfl
@[simp] theorem setCause_boot (bit : Nat) : (setCause s bit).boot = s.boot := rfl

@[simp] theorem setStop_pending : (setStop s ).pending = s.pending := rfl
@[simp] theorem setStop_out : (setStop s ).out = s.out := rfl
@[simp] theorem setStop_fresh : (setStop s ).fresh = s.fresh := rfl
@[simp] theorem setStop_fuses : (setStop s ).fuses = s.fuses := rfl
@[simp] theorem setStop_flash : (setStop s ).flash = s.flash := rfl
@[simp] theorem setStop_pins : (setStop s ).pins = s.pins := rfl
@[simp] theorem setStop_od : (setStop s ).od = s.od := rfl
@[simp] theorem setStop_odb : (setStop s ).odb = s.odb := rfl
@[simp] theorem setStop_time : (setStop s ).time = s.time := rfl
@[simp] theorem setStop_rows : (setStop s ).rows = s.rows := rfl
@[simp] theorem setStop_stage : (setStop s ).stage = s.stage := rfl
@[simp] theorem setStop_strikes : (setStop s ).strikes = s.strikes := rfl
@[simp] theorem setStop_cores : (setStop s ).cores = s.cores := rfl
@[simp] theorem setStop_ext : (setStop s ).ext = s.ext := rfl
@[simp] theorem setStop_engines : (setStop s ).engines = s.engines := rfl
@[simp] theorem setStop_ctx : (setStop s ).ctx = s.ctx := rfl
@[simp] theorem setStop_legs : (setStop s ).legs = s.legs := rfl
@[simp] theorem setStop_links : (setStop s ).links = s.links := rfl
@[simp] theorem setStop_fabric : (setStop s ).fabric = s.fabric := rfl
@[simp] theorem setStop_start : (setStop s ).start = s.start := rfl
@[simp] theorem setStop_host : (setStop s ).host = s.host := rfl
@[simp] theorem setStop_dict : (setStop s ).dict = s.dict := rfl
@[simp] theorem setStop_escalations : (setStop s ).escalations = s.escalations := rfl
@[simp] theorem setStop_deliveredAt : (setStop s ).deliveredAt = s.deliveredAt := rfl
@[simp] theorem setStop_observe : (setStop s ).observe = s.observe := rfl
@[simp] theorem setStop_cargo : (setStop s ).cargo = s.cargo := rfl
@[simp] theorem setStop_power : (setStop s ).power = s.power := rfl
@[simp] theorem setStop_boot : (setStop s ).boot = s.boot := rfl

@[simp] theorem askExtension_pending (n : Nat) : (askExtension s n).pending = s.pending := rfl
@[simp] theorem askExtension_out (n : Nat) : (askExtension s n).out = s.out := rfl
@[simp] theorem askExtension_fresh (n : Nat) : (askExtension s n).fresh = s.fresh := rfl
@[simp] theorem askExtension_fuses (n : Nat) : (askExtension s n).fuses = s.fuses := rfl
@[simp] theorem askExtension_flash (n : Nat) : (askExtension s n).flash = s.flash := rfl
@[simp] theorem askExtension_pins (n : Nat) : (askExtension s n).pins = s.pins := rfl
@[simp] theorem askExtension_od (n : Nat) : (askExtension s n).od = s.od := rfl
@[simp] theorem askExtension_odb (n : Nat) : (askExtension s n).odb = s.odb := rfl
@[simp] theorem askExtension_time (n : Nat) : (askExtension s n).time = s.time := rfl
@[simp] theorem askExtension_rows (n : Nat) : (askExtension s n).rows = s.rows := rfl
@[simp] theorem askExtension_stage (n : Nat) : (askExtension s n).stage = s.stage := rfl
@[simp] theorem askExtension_strikes (n : Nat) : (askExtension s n).strikes = s.strikes := rfl
@[simp] theorem askExtension_cores (n : Nat) : (askExtension s n).cores = s.cores := rfl
@[simp] theorem askExtension_ext (n : Nat) : (askExtension s n).ext = s.ext := rfl
@[simp] theorem askExtension_engines (n : Nat) : (askExtension s n).engines = s.engines := rfl
@[simp] theorem askExtension_ctx (n : Nat) : (askExtension s n).ctx = s.ctx := rfl
@[simp] theorem askExtension_legs (n : Nat) : (askExtension s n).legs = s.legs := rfl
@[simp] theorem askExtension_links (n : Nat) : (askExtension s n).links = s.links := rfl
@[simp] theorem askExtension_fabric (n : Nat) : (askExtension s n).fabric = s.fabric := rfl
@[simp] theorem askExtension_start (n : Nat) : (askExtension s n).start = s.start := rfl
@[simp] theorem askExtension_host (n : Nat) : (askExtension s n).host = s.host := rfl
@[simp] theorem askExtension_dict (n : Nat) : (askExtension s n).dict = s.dict := rfl
@[simp] theorem askExtension_escalations (n : Nat) : (askExtension s n).escalations = s.escalations := rfl
@[simp] theorem askExtension_deliveredAt (n : Nat) : (askExtension s n).deliveredAt = s.deliveredAt := rfl
@[simp] theorem askExtension_observe (n : Nat) : (askExtension s n).observe = s.observe := rfl
@[simp] theorem askExtension_cargo (n : Nat) : (askExtension s n).cargo = s.cargo := rfl
@[simp] theorem askExtension_power (n : Nat) : (askExtension s n).power = s.power := rfl
@[simp] theorem askExtension_boot (n : Nat) : (askExtension s n).boot = s.boot := rfl

@[simp] theorem raiseAtPost_pending (cause kind unit detail : Nat) : (raiseAtPost s cause kind unit detail).pending = s.pending := rfl
@[simp] theorem raiseAtPost_out (cause kind unit detail : Nat) : (raiseAtPost s cause kind unit detail).out = s.out := rfl
@[simp] theorem raiseAtPost_fresh (cause kind unit detail : Nat) : (raiseAtPost s cause kind unit detail).fresh = s.fresh := rfl
@[simp] theorem raiseAtPost_fuses (cause kind unit detail : Nat) : (raiseAtPost s cause kind unit detail).fuses = s.fuses := rfl
@[simp] theorem raiseAtPost_flash (cause kind unit detail : Nat) : (raiseAtPost s cause kind unit detail).flash = s.flash := rfl
@[simp] theorem raiseAtPost_pins (cause kind unit detail : Nat) : (raiseAtPost s cause kind unit detail).pins = s.pins := rfl
@[simp] theorem raiseAtPost_od (cause kind unit detail : Nat) : (raiseAtPost s cause kind unit detail).od = s.od := rfl
@[simp] theorem raiseAtPost_odb (cause kind unit detail : Nat) : (raiseAtPost s cause kind unit detail).odb = s.odb := rfl
@[simp] theorem raiseAtPost_time (cause kind unit detail : Nat) : (raiseAtPost s cause kind unit detail).time = s.time := rfl
@[simp] theorem raiseAtPost_rows (cause kind unit detail : Nat) : (raiseAtPost s cause kind unit detail).rows = s.rows := rfl
@[simp] theorem raiseAtPost_stage (cause kind unit detail : Nat) : (raiseAtPost s cause kind unit detail).stage = s.stage := rfl
@[simp] theorem raiseAtPost_strikes (cause kind unit detail : Nat) : (raiseAtPost s cause kind unit detail).strikes = s.strikes := rfl
@[simp] theorem raiseAtPost_cores (cause kind unit detail : Nat) : (raiseAtPost s cause kind unit detail).cores = s.cores := rfl
@[simp] theorem raiseAtPost_ext (cause kind unit detail : Nat) : (raiseAtPost s cause kind unit detail).ext = s.ext := rfl
@[simp] theorem raiseAtPost_engines (cause kind unit detail : Nat) : (raiseAtPost s cause kind unit detail).engines = s.engines := rfl
@[simp] theorem raiseAtPost_ctx (cause kind unit detail : Nat) : (raiseAtPost s cause kind unit detail).ctx = s.ctx := rfl
@[simp] theorem raiseAtPost_legs (cause kind unit detail : Nat) : (raiseAtPost s cause kind unit detail).legs = s.legs := rfl
@[simp] theorem raiseAtPost_links (cause kind unit detail : Nat) : (raiseAtPost s cause kind unit detail).links = s.links := rfl
@[simp] theorem raiseAtPost_fabric (cause kind unit detail : Nat) : (raiseAtPost s cause kind unit detail).fabric = s.fabric := rfl
@[simp] theorem raiseAtPost_start (cause kind unit detail : Nat) : (raiseAtPost s cause kind unit detail).start = s.start := rfl
@[simp] theorem raiseAtPost_host (cause kind unit detail : Nat) : (raiseAtPost s cause kind unit detail).host = s.host := rfl
@[simp] theorem raiseAtPost_dict (cause kind unit detail : Nat) : (raiseAtPost s cause kind unit detail).dict = s.dict := rfl
@[simp] theorem raiseAtPost_escalations (cause kind unit detail : Nat) : (raiseAtPost s cause kind unit detail).escalations = s.escalations := rfl
@[simp] theorem raiseAtPost_deliveredAt (cause kind unit detail : Nat) : (raiseAtPost s cause kind unit detail).deliveredAt = s.deliveredAt := rfl
@[simp] theorem raiseAtPost_observe (cause kind unit detail : Nat) : (raiseAtPost s cause kind unit detail).observe = s.observe := rfl
@[simp] theorem raiseAtPost_cargo (cause kind unit detail : Nat) : (raiseAtPost s cause kind unit detail).cargo = s.cargo := rfl
@[simp] theorem raiseAtPost_power (cause kind unit detail : Nat) : (raiseAtPost s cause kind unit detail).power = s.power := rfl
@[simp] theorem raiseAtPost_boot (cause kind unit detail : Nat) : (raiseAtPost s cause kind unit detail).boot = s.boot := rfl

@[simp] theorem odAdd_pending (id n : Nat) : (odAdd s id n).pending = s.pending := rfl
@[simp] theorem odAdd_out (id n : Nat) : (odAdd s id n).out = s.out := rfl
@[simp] theorem odAdd_fresh (id n : Nat) : (odAdd s id n).fresh = s.fresh := rfl
@[simp] theorem odAdd_fuses (id n : Nat) : (odAdd s id n).fuses = s.fuses := rfl
@[simp] theorem odAdd_flash (id n : Nat) : (odAdd s id n).flash = s.flash := rfl
@[simp] theorem odAdd_pins (id n : Nat) : (odAdd s id n).pins = s.pins := rfl
@[simp] theorem odAdd_odb (id n : Nat) : (odAdd s id n).odb = s.odb := rfl
@[simp] theorem odAdd_time (id n : Nat) : (odAdd s id n).time = s.time := rfl
@[simp] theorem odAdd_rows (id n : Nat) : (odAdd s id n).rows = s.rows := rfl
@[simp] theorem odAdd_stage (id n : Nat) : (odAdd s id n).stage = s.stage := rfl
@[simp] theorem odAdd_vote (id n : Nat) : (odAdd s id n).vote = s.vote := rfl
@[simp] theorem odAdd_strikes (id n : Nat) : (odAdd s id n).strikes = s.strikes := rfl
@[simp] theorem odAdd_cores (id n : Nat) : (odAdd s id n).cores = s.cores := rfl
@[simp] theorem odAdd_ext (id n : Nat) : (odAdd s id n).ext = s.ext := rfl
@[simp] theorem odAdd_engines (id n : Nat) : (odAdd s id n).engines = s.engines := rfl
@[simp] theorem odAdd_ctx (id n : Nat) : (odAdd s id n).ctx = s.ctx := rfl
@[simp] theorem odAdd_legs (id n : Nat) : (odAdd s id n).legs = s.legs := rfl
@[simp] theorem odAdd_links (id n : Nat) : (odAdd s id n).links = s.links := rfl
@[simp] theorem odAdd_fabric (id n : Nat) : (odAdd s id n).fabric = s.fabric := rfl
@[simp] theorem odAdd_start (id n : Nat) : (odAdd s id n).start = s.start := rfl
@[simp] theorem odAdd_host (id n : Nat) : (odAdd s id n).host = s.host := rfl
@[simp] theorem odAdd_dict (id n : Nat) : (odAdd s id n).dict = s.dict := rfl
@[simp] theorem odAdd_escalations (id n : Nat) : (odAdd s id n).escalations = s.escalations := rfl
@[simp] theorem odAdd_deliveredAt (id n : Nat) : (odAdd s id n).deliveredAt = s.deliveredAt := rfl
@[simp] theorem odAdd_observe (id n : Nat) : (odAdd s id n).observe = s.observe := rfl
@[simp] theorem odAdd_cargo (id n : Nat) : (odAdd s id n).cargo = s.cargo := rfl
@[simp] theorem odAdd_power (id n : Nat) : (odAdd s id n).power = s.power := rfl
@[simp] theorem odAdd_boot (id n : Nat) : (odAdd s id n).boot = s.boot := rfl

@[simp] theorem odSetInt_pending (id : Nat) (v : Int) : (odSetInt s id v).pending = s.pending := rfl
@[simp] theorem odSetInt_out (id : Nat) (v : Int) : (odSetInt s id v).out = s.out := rfl
@[simp] theorem odSetInt_fresh (id : Nat) (v : Int) : (odSetInt s id v).fresh = s.fresh := rfl
@[simp] theorem odSetInt_fuses (id : Nat) (v : Int) : (odSetInt s id v).fuses = s.fuses := rfl
@[simp] theorem odSetInt_flash (id : Nat) (v : Int) : (odSetInt s id v).flash = s.flash := rfl
@[simp] theorem odSetInt_pins (id : Nat) (v : Int) : (odSetInt s id v).pins = s.pins := rfl
@[simp] theorem odSetInt_odb (id : Nat) (v : Int) : (odSetInt s id v).odb = s.odb := rfl
@[simp] theorem odSetInt_time (id : Nat) (v : Int) : (odSetInt s id v).time = s.time := rfl
@[simp] theorem odSetInt_rows (id : Nat) (v : Int) : (odSetInt s id v).rows = s.rows := rfl
@[simp] theorem odSetInt_stage (id : Nat) (v : Int) : (odSetInt s id v).stage = s.stage := rfl
@[simp] theorem odSetInt_vote (id : Nat) (v : Int) : (odSetInt s id v).vote = s.vote := rfl
@[simp] theorem odSetInt_strikes (id : Nat) (v : Int) : (odSetInt s id v).strikes = s.strikes := rfl
@[simp] theorem odSetInt_cores (id : Nat) (v : Int) : (odSetInt s id v).cores = s.cores := rfl
@[simp] theorem odSetInt_ext (id : Nat) (v : Int) : (odSetInt s id v).ext = s.ext := rfl
@[simp] theorem odSetInt_engines (id : Nat) (v : Int) : (odSetInt s id v).engines = s.engines := rfl
@[simp] theorem odSetInt_ctx (id : Nat) (v : Int) : (odSetInt s id v).ctx = s.ctx := rfl
@[simp] theorem odSetInt_legs (id : Nat) (v : Int) : (odSetInt s id v).legs = s.legs := rfl
@[simp] theorem odSetInt_links (id : Nat) (v : Int) : (odSetInt s id v).links = s.links := rfl
@[simp] theorem odSetInt_fabric (id : Nat) (v : Int) : (odSetInt s id v).fabric = s.fabric := rfl
@[simp] theorem odSetInt_start (id : Nat) (v : Int) : (odSetInt s id v).start = s.start := rfl
@[simp] theorem odSetInt_host (id : Nat) (v : Int) : (odSetInt s id v).host = s.host := rfl
@[simp] theorem odSetInt_dict (id : Nat) (v : Int) : (odSetInt s id v).dict = s.dict := rfl
@[simp] theorem odSetInt_escalations (id : Nat) (v : Int) : (odSetInt s id v).escalations = s.escalations := rfl
@[simp] theorem odSetInt_deliveredAt (id : Nat) (v : Int) : (odSetInt s id v).deliveredAt = s.deliveredAt := rfl
@[simp] theorem odSetInt_observe (id : Nat) (v : Int) : (odSetInt s id v).observe = s.observe := rfl
@[simp] theorem odSetInt_cargo (id : Nat) (v : Int) : (odSetInt s id v).cargo = s.cargo := rfl
@[simp] theorem odSetInt_power (id : Nat) (v : Int) : (odSetInt s id v).power = s.power := rfl
@[simp] theorem odSetInt_boot (id : Nat) (v : Int) : (odSetInt s id v).boot = s.boot := rfl

@[simp] theorem modCore_pending (p : Nat) (f : Core → Core) : (modCore s p f).pending = s.pending := rfl
@[simp] theorem modCore_out (p : Nat) (f : Core → Core) : (modCore s p f).out = s.out := rfl
@[simp] theorem modCore_fresh (p : Nat) (f : Core → Core) : (modCore s p f).fresh = s.fresh := rfl
@[simp] theorem modCore_fuses (p : Nat) (f : Core → Core) : (modCore s p f).fuses = s.fuses := rfl
@[simp] theorem modCore_flash (p : Nat) (f : Core → Core) : (modCore s p f).flash = s.flash := rfl
@[simp] theorem modCore_pins (p : Nat) (f : Core → Core) : (modCore s p f).pins = s.pins := rfl
@[simp] theorem modCore_od (p : Nat) (f : Core → Core) : (modCore s p f).od = s.od := rfl
@[simp] theorem modCore_odb (p : Nat) (f : Core → Core) : (modCore s p f).odb = s.odb := rfl
@[simp] theorem modCore_time (p : Nat) (f : Core → Core) : (modCore s p f).time = s.time := rfl
@[simp] theorem modCore_rows (p : Nat) (f : Core → Core) : (modCore s p f).rows = s.rows := rfl
@[simp] theorem modCore_stage (p : Nat) (f : Core → Core) : (modCore s p f).stage = s.stage := rfl
@[simp] theorem modCore_vote (p : Nat) (f : Core → Core) : (modCore s p f).vote = s.vote := rfl
@[simp] theorem modCore_strikes (p : Nat) (f : Core → Core) : (modCore s p f).strikes = s.strikes := rfl
@[simp] theorem modCore_ext (p : Nat) (f : Core → Core) : (modCore s p f).ext = s.ext := rfl
@[simp] theorem modCore_engines (p : Nat) (f : Core → Core) : (modCore s p f).engines = s.engines := rfl
@[simp] theorem modCore_ctx (p : Nat) (f : Core → Core) : (modCore s p f).ctx = s.ctx := rfl
@[simp] theorem modCore_legs (p : Nat) (f : Core → Core) : (modCore s p f).legs = s.legs := rfl
@[simp] theorem modCore_links (p : Nat) (f : Core → Core) : (modCore s p f).links = s.links := rfl
@[simp] theorem modCore_fabric (p : Nat) (f : Core → Core) : (modCore s p f).fabric = s.fabric := rfl
@[simp] theorem modCore_start (p : Nat) (f : Core → Core) : (modCore s p f).start = s.start := rfl
@[simp] theorem modCore_host (p : Nat) (f : Core → Core) : (modCore s p f).host = s.host := rfl
@[simp] theorem modCore_dict (p : Nat) (f : Core → Core) : (modCore s p f).dict = s.dict := rfl
@[simp] theorem modCore_escalations (p : Nat) (f : Core → Core) : (modCore s p f).escalations = s.escalations := rfl
@[simp] theorem modCore_deliveredAt (p : Nat) (f : Core → Core) : (modCore s p f).deliveredAt = s.deliveredAt := rfl
@[simp] theorem modCore_observe (p : Nat) (f : Core → Core) : (modCore s p f).observe = s.observe := rfl
@[simp] theorem modCore_cargo (p : Nat) (f : Core → Core) : (modCore s p f).cargo = s.cargo := rfl
@[simp] theorem modCore_power (p : Nat) (f : Core → Core) : (modCore s p f).power = s.power := rfl
@[simp] theorem modCore_boot (p : Nat) (f : Core → Core) : (modCore s p f).boot = s.boot := rfl

@[simp] theorem modCoreOf_pending (n : Nat) (f : Core → Core) : (modCoreOf s n f).pending = s.pending := rfl
@[simp] theorem modCoreOf_out (n : Nat) (f : Core → Core) : (modCoreOf s n f).out = s.out := rfl
@[simp] theorem modCoreOf_fresh (n : Nat) (f : Core → Core) : (modCoreOf s n f).fresh = s.fresh := rfl
@[simp] theorem modCoreOf_fuses (n : Nat) (f : Core → Core) : (modCoreOf s n f).fuses = s.fuses := rfl
@[simp] theorem modCoreOf_flash (n : Nat) (f : Core → Core) : (modCoreOf s n f).flash = s.flash := rfl
@[simp] theorem modCoreOf_pins (n : Nat) (f : Core → Core) : (modCoreOf s n f).pins = s.pins := rfl
@[simp] theorem modCoreOf_od (n : Nat) (f : Core → Core) : (modCoreOf s n f).od = s.od := rfl
@[simp] theorem modCoreOf_odb (n : Nat) (f : Core → Core) : (modCoreOf s n f).odb = s.odb := rfl
@[simp] theorem modCoreOf_time (n : Nat) (f : Core → Core) : (modCoreOf s n f).time = s.time := rfl
@[simp] theorem modCoreOf_rows (n : Nat) (f : Core → Core) : (modCoreOf s n f).rows = s.rows := rfl
@[simp] theorem modCoreOf_stage (n : Nat) (f : Core → Core) : (modCoreOf s n f).stage = s.stage := rfl
@[simp] theorem modCoreOf_vote (n : Nat) (f : Core → Core) : (modCoreOf s n f).vote = s.vote := rfl
@[simp] theorem modCoreOf_strikes (n : Nat) (f : Core → Core) : (modCoreOf s n f).strikes = s.strikes := rfl
@[simp] theorem modCoreOf_ext (n : Nat) (f : Core → Core) : (modCoreOf s n f).ext = s.ext := rfl
@[simp] theorem modCoreOf_engines (n : Nat) (f : Core → Core) : (modCoreOf s n f).engines = s.engines := rfl
@[simp] theorem modCoreOf_ctx (n : Nat) (f : Core → Core) : (modCoreOf s n f).ctx = s.ctx := rfl
@[simp] theorem modCoreOf_legs (n : Nat) (f : Core → Core) : (modCoreOf s n f).legs = s.legs := rfl
@[simp] theorem modCoreOf_links (n : Nat) (f : Core → Core) : (modCoreOf s n f).links = s.links := rfl
@[simp] theorem modCoreOf_fabric (n : Nat) (f : Core → Core) : (modCoreOf s n f).fabric = s.fabric := rfl
@[simp] theorem modCoreOf_start (n : Nat) (f : Core → Core) : (modCoreOf s n f).start = s.start := rfl
@[simp] theorem modCoreOf_host (n : Nat) (f : Core → Core) : (modCoreOf s n f).host = s.host := rfl
@[simp] theorem modCoreOf_dict (n : Nat) (f : Core → Core) : (modCoreOf s n f).dict = s.dict := rfl
@[simp] theorem modCoreOf_escalations (n : Nat) (f : Core → Core) : (modCoreOf s n f).escalations = s.escalations := rfl
@[simp] theorem modCoreOf_deliveredAt (n : Nat) (f : Core → Core) : (modCoreOf s n f).deliveredAt = s.deliveredAt := rfl
@[simp] theorem modCoreOf_observe (n : Nat) (f : Core → Core) : (modCoreOf s n f).observe = s.observe := rfl
@[simp] theorem modCoreOf_cargo (n : Nat) (f : Core → Core) : (modCoreOf s n f).cargo = s.cargo := rfl
@[simp] theorem modCoreOf_power (n : Nat) (f : Core → Core) : (modCoreOf s n f).power = s.power := rfl
@[simp] theorem modCoreOf_boot (n : Nat) (f : Core → Core) : (modCoreOf s n f).boot = s.boot := rfl

@[simp] theorem modLink_pending (l : Nat) (f : Link → Link) : (modLink s l f).pending = s.pending := rfl
@[simp] theorem modLink_out (l : Nat) (f : Link → Link) : (modLink s l f).out = s.out := rfl
@[simp] theorem modLink_fresh (l : Nat) (f : Link → Link) : (modLink s l f).fresh = s.fresh := rfl
@[simp] theorem modLink_fuses (l : Nat) (f : Link → Link) : (modLink s l f).fuses = s.fuses := rfl
@[simp] theorem modLink_flash (l : Nat) (f : Link → Link) : (modLink s l f).flash = s.flash := rfl
@[simp] theorem modLink_pins (l : Nat) (f : Link → Link) : (modLink s l f).pins = s.pins := rfl
@[simp] theorem modLink_od (l : Nat) (f : Link → Link) : (modLink s l f).od = s.od := rfl
@[simp] theorem modLink_odb (l : Nat) (f : Link → Link) : (modLink s l f).odb = s.odb := rfl
@[simp] theorem modLink_time (l : Nat) (f : Link → Link) : (modLink s l f).time = s.time := rfl
@[simp] theorem modLink_rows (l : Nat) (f : Link → Link) : (modLink s l f).rows = s.rows := rfl
@[simp] theorem modLink_stage (l : Nat) (f : Link → Link) : (modLink s l f).stage = s.stage := rfl
@[simp] theorem modLink_vote (l : Nat) (f : Link → Link) : (modLink s l f).vote = s.vote := rfl
@[simp] theorem modLink_strikes (l : Nat) (f : Link → Link) : (modLink s l f).strikes = s.strikes := rfl
@[simp] theorem modLink_cores (l : Nat) (f : Link → Link) : (modLink s l f).cores = s.cores := rfl
@[simp] theorem modLink_ext (l : Nat) (f : Link → Link) : (modLink s l f).ext = s.ext := rfl
@[simp] theorem modLink_engines (l : Nat) (f : Link → Link) : (modLink s l f).engines = s.engines := rfl
@[simp] theorem modLink_ctx (l : Nat) (f : Link → Link) : (modLink s l f).ctx = s.ctx := rfl
@[simp] theorem modLink_legs (l : Nat) (f : Link → Link) : (modLink s l f).legs = s.legs := rfl
@[simp] theorem modLink_fabric (l : Nat) (f : Link → Link) : (modLink s l f).fabric = s.fabric := rfl
@[simp] theorem modLink_start (l : Nat) (f : Link → Link) : (modLink s l f).start = s.start := rfl
@[simp] theorem modLink_host (l : Nat) (f : Link → Link) : (modLink s l f).host = s.host := rfl
@[simp] theorem modLink_dict (l : Nat) (f : Link → Link) : (modLink s l f).dict = s.dict := rfl
@[simp] theorem modLink_escalations (l : Nat) (f : Link → Link) : (modLink s l f).escalations = s.escalations := rfl
@[simp] theorem modLink_deliveredAt (l : Nat) (f : Link → Link) : (modLink s l f).deliveredAt = s.deliveredAt := rfl
@[simp] theorem modLink_observe (l : Nat) (f : Link → Link) : (modLink s l f).observe = s.observe := rfl
@[simp] theorem modLink_cargo (l : Nat) (f : Link → Link) : (modLink s l f).cargo = s.cargo := rfl
@[simp] theorem modLink_power (l : Nat) (f : Link → Link) : (modLink s l f).power = s.power := rfl
@[simp] theorem modLink_boot (l : Nat) (f : Link → Link) : (modLink s l f).boot = s.boot := rfl

@[simp] theorem odGet_odSet_same (id v : Nat) : odGet (odSet s id v) id = v % 2 ^ odBits id := by
  simp [odGet, odSet]

theorem odGet_odSet_other {id j : Nat} (v : Nat) (h : j ≠ id) : odGet (odSet s id v) j = odGet s j := by
  simp [odGet, odSet, Table.look_put_other _ _ _ _ h]

theorem odGet_odSet (id j v : Nat) : odGet (odSet s id v) j = if j = id then v % 2 ^ odBits id else odGet s j := by
  split
  · next h => rw [h, odGet_odSet_same]
  · next h => exact odGet_odSet_other s v h

theorem odGet_odAdd_same (id n : Nat) : odGet (odAdd s id n) id = (odGet s id + n) % 2 ^ odBits id := by
  simp [odAdd]

theorem odGet_odAdd_other {id j : Nat} (n : Nat) (h : j ≠ id) : odGet (odAdd s id n) j = odGet s j := by
  simp [odAdd, odGet_odSet_other _ _ h]

/-- The object store is all that odGet reads. -/
theorem odGet_congr {s t : State} (h : t.od = s.od) (id : Nat) : odGet t id = odGet s id := by simp [odGet, h]

theorem odGetBytes_congr {s t : State} (h : t.odb = s.odb) (id : Nat) : odGetBytes t id = odGetBytes s id := by
  simp [odGetBytes, h]

@[simp] theorem odGetBytes_odSetBytes_same (id : Nat) (b : Bytes) : odGetBytes (odSetBytes s id b) id = b := by
  simp [odGetBytes, odSetBytes]

theorem odGetBytes_odSetBytes_other {id j : Nat} (b : Bytes) (h : j ≠ id) :
    odGetBytes (odSetBytes s id b) j = odGetBytes s j := by
  simp [odGetBytes, odSetBytes, Table.look_put_other _ _ _ _ h]


@[simp] theorem getCore_setCore_same (k : Nat) (v : Core) : getCore (setCore s k v) k = v := by simp [getCore, setCore]

theorem getCore_setCore_other {k j : Nat} (v : Core) (h : j ≠ k) : getCore (setCore s k v) j = getCore s j := by
  simp [getCore, setCore, Table.look_put_other _ _ _ _ h]

@[simp] theorem getRow_setRow_same (k : Nat) (v : RowClock) : getRow (setRow s k v) k = v := by simp [getRow, setRow]

theorem getRow_setRow_other {k j : Nat} (v : RowClock) (h : j ≠ k) : getRow (setRow s k v) j = getRow s j := by
  simp [getRow, setRow, Table.look_put_other _ _ _ _ h]

@[simp] theorem getLink_setLink_same (k : Nat) (v : Link) : getLink (setLink s k v) k = v := by simp [getLink, setLink]

theorem getLink_setLink_other {k j : Nat} (v : Link) (h : j ≠ k) : getLink (setLink s k v) j = getLink s j := by
  simp [getLink, setLink, Table.look_put_other _ _ _ _ h]

@[simp] theorem getEngine_setEngine_same (k : Nat) (v : Engine) : getEngine (setEngine s k v) k = v := by simp [getEngine, setEngine]

theorem getEngine_setEngine_other {k j : Nat} (v : Engine) (h : j ≠ k) : getEngine (setEngine s k v) j = getEngine s j := by
  simp [getEngine, setEngine, Table.look_put_other _ _ _ _ h]

@[simp] theorem getContext_setContext_same (k : Nat) (v : Context) : getContext (setContext s k v) k = v := by simp [getContext, setContext]

theorem getContext_setContext_other {k j : Nat} (v : Context) (h : j ≠ k) : getContext (setContext s k v) j = getContext s j := by
  simp [getContext, setContext, Table.look_put_other _ _ _ _ h]

@[simp] theorem getLeg_setLeg_same (k : Nat) (v : Leg) : getLeg (setLeg s k v) k = v := by simp [getLeg, setLeg]

theorem getLeg_setLeg_other {k j : Nat} (v : Leg) (h : j ≠ k) : getLeg (setLeg s k v) j = getLeg s j := by
  simp [getLeg, setLeg, Table.look_put_other _ _ _ _ h]

@[simp] theorem getWindow_setWindow_same (k : Nat) (v : Window) : getWindow (setWindow s k v) k = v := by simp [getWindow, setWindow]

theorem getWindow_setWindow_other {k j : Nat} (v : Window) (h : j ≠ k) : getWindow (setWindow s k v) j = getWindow s j := by
  simp [getWindow, setWindow, Table.look_put_other _ _ _ _ h]

@[simp] theorem getCargo_setCargo_same (k : Nat) (v : CargoEntry) : getCargo (setCargo s k v) k = v := by simp [getCargo, setCargo]

theorem getCargo_setCargo_other {k j : Nat} (v : CargoEntry) (h : j ≠ k) : getCargo (setCargo s k v) j = getCargo s j := by
  simp [getCargo, setCargo, Table.look_put_other _ _ _ _ h]

@[simp] theorem getStrikes_setStrikes_same (k : Nat) (v : Strikes) : getStrikes (setStrikes s k v) k = v := by simp [getStrikes, setStrikes]

theorem getStrikes_setStrikes_other {k j : Nat} (v : Strikes) (h : j ≠ k) : getStrikes (setStrikes s k v) j = getStrikes s j := by
  simp [getStrikes, setStrikes, Table.look_put_other _ _ _ _ h]

@[simp] theorem getCore_modCore_same (p : Nat) (f : Core → Core) : getCore (modCore s p f) p = f (getCore s p) := by
  simp [modCore]

theorem getCore_modCore_other {p q : Nat} (f : Core → Core) (h : q ≠ p) : getCore (modCore s p f) q = getCore s q := by
  simp [modCore, getCore_setCore_other _ _ h]

/-- Where a logical core sits depends on the skip columns alone (R28). -/
theorem physOf_congr {s t : State} (h : t.od = s.od) (n : Nat) : physOf t n = physOf s n := by
  have e : ∀ r, skipColumn t r = skipColumn s r := fun r => odGet_congr h _
  simp only [physOf, e]

/-- Two logical cores never share a physical core (R28). -/
theorem physOf_injective {n m : Nat} (h : physOf s n = physOf s m) : n = m := by
  simp only [physOf] at h
  have hr : n / 12 = m / 12 := by split at h <;> split at h <;> omega
  rw [hr] at h
  split at h <;> split at h <;> omega

@[simp] theorem coreOf_modCoreOf_same (n : Nat) (f : Core → Core) : coreOf (modCoreOf s n f) n = f (coreOf s n) := by
  simp [coreOf, modCoreOf, physOf_congr (modCore_od s _ f)]

theorem coreOf_modCoreOf_other {n m : Nat} (f : Core → Core) (h : m ≠ n) :
    coreOf (modCoreOf s n f) m = coreOf s m := by
  have hp : physOf s m ≠ physOf s n := fun e => h (physOf_injective s e)
  simp [coreOf, modCoreOf, physOf_congr (modCore_od s _ f), getCore_modCore_other _ _ hp]

/-- A core reads the same where the objects and the cores are the same. -/
theorem coreOf_congr {s t : State} (ho : t.od = s.od) (hc : t.cores = s.cores) (n : Nat) : coreOf t n = coreOf s n := by
  simp [coreOf, getCore, physOf_congr ho, hc]

@[simp] theorem getLink_modLink_same (l : Nat) (f : Link → Link) : getLink (modLink s l f) l = f (getLink s l) := by
  simp [modLink]

theorem getLink_modLink_other {l m : Nat} (f : Link → Link) (h : m ≠ l) : getLink (modLink s l f) m = getLink s m := by
  simp [modLink, getLink_setLink_other _ _ h]

/-- A property that every step of a fold keeps holds of its end. -/
theorem foldl_keeps {α σ β : Type} (p : σ → β) (f : σ → α → σ) (h : ∀ s a, p (f s a) = p s) (l : List α) (s : σ) :
    p (l.foldl f s) = p s := by
  induction l generalizing s with
  | nil => rfl
  | cons a r ih => rw [List.foldl_cons, ih, h]

theorem forEach_keeps {α σ β : Type} (p : σ → β) (f : σ → α → σ) (h : ∀ s a, p (f s a) = p s) (l : List α) (s : σ) :
    p (forEach l s f) = p s := foldl_keeps p f h l s

end Sys2Proof.Machine
end

