-- ==== Sys2Proof/Laws/Codes.lean ====
section
/-! SUPPORT. Check bits and stored blocks: their lengths, and when a word's check bits are those of its data. -/

namespace Sys2Proof.Machine

/-- A word's stored check bits are the CRC-8 of its data where and only where no mismatch has been reported (R124). -/
theorem storedCheck_eq_iff (c : Core) (w : Nat) : c.storedCheck w = crc8 (c.wordAt w) ↔ w ∉ c.scratchErrors := by
  have key (x y : Byte) : x ^^^ y = x ↔ y = 0 := by
    constructor
    · intro h; simpa [← BitVec.xor_assoc] using congrArg (x ^^^ ·) h
    · rintro rfl; simp
  by_cases h : w ∈ c.scratchErrors
  · simp only [Core.storedCheck, key]
    generalize Config.scratchSyndrome w = y
    by_cases hy : y = 0
    · simp [h, hy]
    · rw [if_neg (by simpa using h), if_neg hy]; exact iff_of_false hy (not_not_intro h)
  · simp [Core.storedCheck, h]

@[simp] theorem slice_length (b : Bytes) (i n : Nat) : (slice b i n).length = n := by
  simp only [slice, zeroBytes, List.length_append, List.length_replicate, List.length_take]; omega

theorem rsStep_length (r : Bytes) (d : Byte) (h : r.length = 4) : (rsStep r d).length = 4 := by
  simp [rsStep, rsGenerator, h]

/-- A codeword has four check bytes (R144). -/
@[simp] theorem rsCheck_length (d : Bytes) : (rsCheck d).length = 4 := by
  suffices h : ∀ r : Bytes, r.length = 4 → (d.foldl rsStep r).length = 4 from h _ rfl
  induction d with
  | nil => exact fun _ h => h
  | cons x d ih => exact fun r hr => ih _ (rsStep_length r x hr)

@[simp] theorem codeword_length (s : State) (a : Nat) (h : Bool) : (codeword s a h).length = 36 := by
  simp only [codeword]; split <;> simp

/-- A raw block is 512 bytes: 448 of data, 56 of check bytes and 8 of zero (R148). -/
theorem rawBlock_length (s : State) (i k : Nat) : (rawBlock s i k).length = 512 := by
  simp [rawBlock, countFrom, zeroBytes]

/-- A unit of 128 bytes passes a hop in 144 (R144). -/
theorem codeUnit_length (u : BitVec 1024) : (codeUnit u).length = 144 := by
  have h (i : Nat) : (slice (leBytes u.toNat 128) (32 * i) 32
      ++ rsCheck (slice (leBytes u.toNat 128) (32 * i) 32)).length = 36 := by simp
  simp only [codeUnit, countFrom, List.flatMap_cons, List.flatMap_nil, List.length_append, h, List.length_nil]

end Sys2Proof.Machine
end

