-- ==== Sys2Proof/Laws/Issue.lean ====
section
/-! SUPPORT. What the issue of one operation comes to, once nothing keeps it from issuing. -/

namespace Sys2Proof.Machine

theorem foldl_accum {α : Type} (f : State → α → State)
    (h : ∀ s x, ∃ a, f s x = { s with observe := { s.observe with accum := a } }) (l : List α) (s : State) :
    ∃ a, l.foldl f s = { s with observe := { s.observe with accum := a } } := by
  induction l generalizing s with
  | nil => exact ⟨_, rfl⟩
  | cons x r ih =>
    obtain ⟨a, ha⟩ := h s x
    obtain ⟨b, hb⟩ := ih { s with observe := { s.observe with accum := a } }
    exact ⟨b, by rw [List.foldl_cons, ha, hb]⟩

/-- An event that counters gather changes what they have seen in the cycle, and nothing else. -/
theorem noteEvent_frame (s : State) (first count e n : Nat) (link : Option Nat) :
    ∃ a, noteEvent s first count e n link = { s with observe := { s.observe with accum := a } } := by
  refine foldl_accum _ (fun s x => ?_) _ s
  cases link <;> dsimp only <;> split <;> exact ⟨_, rfl⟩

theorem coreEvent_frame (s : State) (n e k : Nat) :
    ∃ a, coreEvent s n e k = { s with observe := { s.observe with accum := a } } :=
  noteEvent_frame s _ _ _ _ _

@[simp] theorem coreEvent_od (s : State) (n e k : Nat) : (coreEvent s n e k).od = s.od := by
  obtain ⟨a, h⟩ := coreEvent_frame s n e k; rw [h]
@[simp] theorem coreEvent_cores (s : State) (n e k : Nat) : (coreEvent s n e k).cores = s.cores := by
  obtain ⟨a, h⟩ := coreEvent_frame s n e k; rw [h]

@[simp] theorem coreOf_coreEvent (s : State) (n e k m : Nat) : coreOf (coreEvent s n e k) m = coreOf s m :=
  coreOf_congr (coreEvent_od s n e k) (coreEvent_cores s n e k) m

/-- An operation alone in its bundle clashes with none. -/
theorem pairFindings_single (c : Core) (o : SlotOp) : c.pairFindings [o] = [] := by
  cases o <;> simp [Core.pairFindings, Core.clash]

/-- A plain operation breaches no window that has room. -/
theorem windowBreach_plain {c : Core} (h : ∀ g, c.region = some g → g.resolved = false → g.shadowBundles < 6) :
    windowBreach c plainHeader = false := by
  unfold windowBreach plainHeader
  cases hr : c.region with
  | none => rfl
  | some g =>
    cases hg : g.resolved with
    | true => simp [hg]
    | false => have := h g hr hg; simp [hg]; omega

/-- No halt takes effect at an issue that none was detected before. -/
theorem lateHalt_none {c : Core} (h : ∀ d ∈ c.deferred, c.cycle ≤ d.cycle) : c.lateHalt = none := by
  unfold Core.lateHalt
  cases hd : c.deferred with
  | nil => rfl
  | cons d r =>
    have hle := h d (by rw [hd]; exact List.mem_cons_self)
    simp [Option.filter]
    omega

/-- An operation that nothing keeps from issuing is judged to issue. -/
theorem judgeOne_of_issuable {s : State} {n : Nat} {o : SlotOp} (h : Issuable s n o) : judgeOne s n o = .issue := by
  have hf : findings s n [o] = [] := by
    simp [findings, h.free, h.depot, pairFindings_single]
  have hh : hardwareFault (coreOf s n) [o] [] [] = none := by
    simp [hardwareFault, slotHalts, h.clean, h.sound]
  simp [judgeOne, judgeOps, judgeOps.faultOf, h.encoding, windowBreach_plain h.window, hf, lateHalt_none h.settled, hh, firstWait,
    hasHazard, faultsOf, lowestFault]

/-- The command of an operation that issues carries out its effect. -/
theorem issueSlot_of_issues {s : State} {n : Nat} {o : SlotOp} (h : Issues s n o) :
    issueSlot s n o = issueOps (freshCycle s n) n plainHeader [o] false false := by
  unfold issueSlot
  simp only [h.inTime, h.running, judgeOne_of_issuable h, carryOut, noteAtPost, plainHeader]
  simp

theorem filter_le_one_of_nodup {l : List Nat} (h : l.Nodup) (r : Nat) : (l.filter (· = r)).length ≤ 1 := by
  induction l with
  | nil => simp
  | cons a l ih =>
    rw [List.nodup_cons] at h
    by_cases ha : a = r
    · have : l.filter (· = r) = [] := by
        rw [List.filter_eq_nil_iff]
        intro b hb he
        have : b = a := by simpa [ha] using he
        exact h.1 (this ▸ hb)
      simp [ha, this]
    · simpa [ha] using ih h.2

/-- Operations that write no register twice leave no free value. -/
theorem freeDoubles_of_nodup {s : State} {n : Nat} {ops : List SlotOp}
    (h : (ops.flatMap (·.writes)).Nodup) : freeDoubles s n ops = s := by
  have ht : (countFrom 0 40).filter (fun r => 2 ≤ ((ops.flatMap (·.writes)).filter (· = r)).length) = [] := by
    rw [List.filter_eq_nil_iff]
    intro r _
    have hc := filter_le_one_of_nodup h r
    simp only [decide_eq_true_eq]
    omega
  unfold freeDoubles
  simp only [ht, List.foldl_nil]

theorem OnlyCore.refl (s : State) (n : Nat) : OnlyCore s s n := ⟨rfl, fun _ _ => rfl⟩

theorem OnlyCore.modCoreOf (s : State) (n : Nat) (f : Core → Core) : OnlyCore s (modCoreOf s n f) n :=
  ⟨rfl, fun _ hp => getCore_modCore_other _ _ hp⟩

theorem OnlyCore.od {s t : State} {n : Nat} (h : OnlyCore s t n) : t.od = s.od := by rw [h.device]

theorem OnlyCore.trans {s t u : State} {n : Nat} (h : OnlyCore s t n) (k : OnlyCore t u n) : OnlyCore s u n := by
  constructor
  · rw [k.device, h.device]
  · intro p hp
    rw [k.others p (by rwa [physOf_congr h.od]), h.others p hp]

theorem OnlyCore.coreEvent (s : State) (n e k m : Nat) : OnlyCore s (coreEvent s m e k) n := by
  obtain ⟨a, h⟩ := coreEvent_frame s m e k
  rw [h]
  exact ⟨rfl, fun _ _ => rfl⟩

/-- What an issue's own events change: nothing that a core holds. -/
theorem OnlyCore.coreEventIf (s : State) (n e k m : Nat) (b : Prop) [Decidable b] :
    OnlyCore s (if b then Machine.coreEvent s m e k else s) n := by
  split
  · exact OnlyCore.coreEvent s n e k m
  · exact OnlyCore.refl s n

/-- What the counters' step changes: their values, and nothing else of a core (R35). -/
theorem Core.stepCounters_frame (c : Core) (k : Nat) : ∃ t, c.stepCounters k = { c with regs := { c.regs with c := t } } := by
  have step : ∀ (l : List Nat) (c : Core), ∃ t, l.foldl (fun c i =>
      if (c.counter i).source.toNat = k then c.setC i { c.counter i with value := (c.counter i).value + 1 } else c) c
        = { c with regs := { c.regs with c := t } } := by
    intro l
    induction l with
    | nil => exact fun c => ⟨_, rfl⟩
    | cons i r ih =>
      intro c
      rw [List.foldl_cons]
      split
      · obtain ⟨t, ht⟩ := ih (c.setC i { c.counter i with value := (c.counter i).value + 1 })
        exact ⟨t, ht⟩
      · exact ih c
  exact step [0, 1, 2, 3] c

theorem Core.stepCounters_regs (c : Core) (k : Nat) :
    (c.stepCounters k).regs = { c.regs with c := (c.stepCounters k).regs.c } := by
  obtain ⟨t, h⟩ := c.stepCounters_frame k; rw [h]
@[simp] theorem Core.stepCounters_pc (c : Core) (k : Nat) : (c.stepCounters k).pc = c.pc := by
  obtain ⟨t, h⟩ := c.stepCounters_frame k; rw [h]
@[simp] theorem Core.stepCounters_region (c : Core) (k : Nat) : (c.stepCounters k).region = c.region := by
  obtain ⟨t, h⟩ := c.stepCounters_frame k; rw [h]

/-- What the note of an issue changes: its own fields, and what the region counts (R35, R428). -/
theorem Core.noteIssue_cases (c : Core) (m : Nat) : ∃ r g,
    c.noteIssue m = { c with issued := c.cycle + 1, lastBundle := c.pc % 4096 + 4096 * flag c.bank, lastSlots := m, entered := true,
                             retiredSlots := r, region := g }
      ∧ SameRegion c.region g := by
  unfold Core.noteIssue
  dsimp only
  split
  · exact ⟨_, _, rfl, by cases c.region <;> simp [SameRegion]⟩
  · split
    · exact ⟨_, _, rfl, by cases c.region <;> simp [SameRegion]⟩
    · exact ⟨_, _, rfl, by cases c.region <;> simp [SameRegion]⟩

theorem Core.noteIssue_pc (c : Core) (m : Nat) : (c.noteIssue m).pc = c.pc := by
  obtain ⟨r, g, h, -⟩ := c.noteIssue_cases m; rw [h]
theorem Core.noteIssue_regs (c : Core) (m : Nat) : (c.noteIssue m).regs = c.regs := by
  obtain ⟨r, g, h, -⟩ := c.noteIssue_cases m; rw [h]
theorem Core.noteIssue_noted (c : Core) (m : Nat) : c.noteIssue m = c.noted (c.noteIssue m) := by
  obtain ⟨r, g, h, -⟩ := c.noteIssue_cases m; rw [h]; rfl
theorem Core.noteIssue_region (c : Core) (m : Nat) : SameRegion c.region (c.noteIssue m).region := by
  obtain ⟨r, g, h, hg⟩ := c.noteIssue_cases m; rw [h]; exact hg

/-- An operation that acts on its core alone: the core it leaves, and the device it leaves. -/
theorem issueOps_coreOnly {s : State} {n : Nat} {o : SlotOp} {f : Core → Core}
    (he : effectSlot s n (envOf s n) (coreOf s n) (coreOf s n).inShadow o = modCoreOf s n f)
    (hw : o.writes.Nodup) (hb : branchOf [o] = none) (hp : (f (coreOf s n)).pc = (coreOf s n).pc) :
    coreOf (issueOps s n plainHeader [o] false false) n = ((f (coreOf s n)).stepCounters 1).noteIssue (slotMask [o])
      ∧ OnlyCore s (issueOps s n plainHeader [o] false false) n := by
  unfold issueOps
  have hd : ∀ t, freeDoubles t n [o] = t := fun t => freeDoubles_of_nodup (by simpa using hw)
  simp only [List.foldl_cons, List.foldl_nil, he, hd, hb]
  constructor
  · rw [coreOf_modCoreOf_same]
    have hc : ∀ (p : Prop) [Decidable p] (c : Bool) (q : Nat),
        coreOf (if p then coreEvent (if c then coreEvent (coreEvent (modCoreOf s n f) n 0x06 1) n 0x0B 1
        else coreEvent (modCoreOf s n f) n 0x06 1) n 0x11 q else (if c then coreEvent (coreEvent (modCoreOf s n f) n 0x06 1) n 0x0B 1
        else coreEvent (modCoreOf s n f) n 0x06 1)) n = f (coreOf s n) := by
      intro p _ c q
      cases c <;> by_cases p <;> simp [*]
    rw [hc]
    have hp' : ((f (coreOf s n)).stepCounters 1).pc = (coreOf s n).pc := by rw [Core.stepCounters_pc, hp]
    generalize (f (coreOf s n)).stepCounters 1 = d at hp' ⊢
    have hpc : (d.noteIssue (slotMask [o])).pc = (coreOf s n).pc := by
      rw [← hp']; exact Core.noteIssue_pc d _
    simp only [plainHeader, Bool.false_and, Bool.false_eq_true, if_false]
    rw [← hpc]
    simp only [show ((0 : Nat) = 2) = False by decide, if_false]
    split <;> rfl
  · refine OnlyCore.trans ?_ (OnlyCore.modCoreOf _ n _)
    refine OnlyCore.trans ?_ (OnlyCore.coreEventIf _ n _ _ _ _)
    refine OnlyCore.trans ?_ (OnlyCore.coreEventIf _ n _ _ _ _)
    refine OnlyCore.trans ?_ (OnlyCore.coreEvent _ n _ _ _)
    exact OnlyCore.modCoreOf s n f

/-- What an operation leaves, from the core and the device after its issue. -/
theorem leavesCore_of_noted {s t : State} {n m : Nat} {c : Core} (hc : coreOf t n = (c.stepCounters 1).noteIssue m)
    (hd : OnlyCore (freshCycle s n) t n) : LeavesCore s t n c ∧ ∃ k, (coreOf t n).regs = { c.regs with c := k } := by
  have hn := Core.noteIssue_noted (c.stepCounters 1) m
  have hg := Core.noteIssue_region (c.stepCounters 1) m
  rw [← hc] at hn hg
  rw [Core.stepCounters_region] at hg
  refine ⟨⟨hn, hg, hd⟩, (c.stepCounters 1).regs.c, ?_⟩
  rw [hc, Core.noteIssue_regs, ← Core.stepCounters_regs]

/-- An operation that acts on its core alone leaves it as its effect does. -/
theorem leavesCore_of_issues {s : State} {n : Nat} {o : SlotOp} (f : Core → Core) (h : Issues s n o)
    (he : effectSlot (freshCycle s n) n (envOf (freshCycle s n) n) (preIssue s n) (preIssue s n).inShadow o
      = modCoreOf (freshCycle s n) n f)
    (hw : o.writes.Nodup) (hb : branchOf [o] = none) (hp : (f (preIssue s n)).pc = (preIssue s n).pc) :
    LeavesCore s (issueSlot s n o) n (f (preIssue s n))
      ∧ ∃ t, (coreOf (issueSlot s n o) n).regs = { (f (preIssue s n)).regs with c := t } := by
  obtain ⟨hc, hd⟩ := issueOps_coreOnly he hw hb hp
  rw [issueSlot_of_issues h]
  exact leavesCore_of_noted hc hd

/-- An operation whose effect is one X result. -/
theorem writesX_of_issues {s : State} {n : Nat} {o : SlotOp} (d lat : Nat) (v : BitVec 64) (h : Issues s n o)
    (he : effectSlot (freshCycle s n) n (envOf (freshCycle s n) n) (preIssue s n) (preIssue s n).inShadow o
      = modCoreOf (freshCycle s n) n (fun c => c.resultX d lat v))
    (hw : o.writes.Nodup) (hb : branchOf [o] = none) : WritesX s (issueSlot s n o) n d lat v := by
  obtain ⟨hc, u, hr⟩ := leavesCore_of_issues _ h he hw hb rfl
  refine ⟨?_, ?_, ?_, ?_, ?_, ?_⟩
  · simp [Core.x, hr, Core.resultX, Core.setReady, Core.setX]
  · simp [Core.readyAt, hr, Core.resultX, Core.setReady, Core.setX]
  · intro r hne
    simp [Core.x, hr, Core.resultX, Core.setReady, Core.setX, Table.look_put_other _ _ _ _ hne]
  · intro r hne
    simp [Core.readyAt, hr, Core.resultX, Core.setReady, Core.setX, Table.look_put_other _ _ _ _ hne]
  · intro r
    simp [hr, Core.resultX, Core.setReady, Core.setX]
  · have : (preIssue s n).resultX d lat v = { preIssue s n with
        regs := { (preIssue s n).regs with
          x := (coreOf (issueSlot s n o) n).regs.x, ready := (coreOf (issueSlot s n o) n).regs.ready
          errors := (coreOf (issueSlot s n o) n).regs.errors } } := by
      rw [hr]; rfl
    rwa [this] at hc

/-- What a V operation does besides its results (R37, R94). -/
theorem vectorIssued_of_issues {s : State} {n : Nat} {o : VOp} (g : Core → Core) (h : Issues s n (.v o))
    (he : effectSlot (freshCycle s n) n (envOf (freshCycle s n) n) (preIssue s n) (preIssue s n).inShadow (.v o)
      = modCoreOf (freshCycle s n) n (fun c => g (c.vectorIssue (preIssue s n) o)))
    (hw : (SlotOp.v o).writes.Nodup)
    (hg : ∀ c, g c = { c with regs := { c.regs with
      x := (g c).regs.x, v := (g c).regs.v, ready := (g c).regs.ready, errors := (g c).regs.errors } }) :
    VectorIssued s (issueSlot s n (.v o)) n o (g ((preIssue s n).vectorIssue (preIssue s n) o)).regs.x
        (g ((preIssue s n).vectorIssue (preIssue s n) o)).regs.v
      ∧ ∃ t, (coreOf (issueSlot s n (.v o)) n).regs = { (g ((preIssue s n).vectorIssue (preIssue s n) o)).regs with c := t } := by
  have hp : (g ((preIssue s n).vectorIssue (preIssue s n) o)).pc = (preIssue s n).pc := by rw [hg]; rfl
  obtain ⟨hc, u, hr⟩ := leavesCore_of_issues _ h he hw rfl hp
  refine ⟨⟨?_, ?_, ?_⟩, u, hr⟩
  · rw [hr, hg]; rfl
  · rw [hr, hg]; rfl
  · have : g ((preIssue s n).vectorIssue (preIssue s n) o) = { preIssue s n with
        regs := { (preIssue s n).regs with
          x := (g ((preIssue s n).vectorIssue (preIssue s n) o)).regs.x
          v := (g ((preIssue s n).vectorIssue (preIssue s n) o)).regs.v
          ready := (coreOf (issueSlot s n (.v o)) n).regs.ready, vFree := (coreOf (issueSlot s n (.v o)) n).regs.vFree
          stoch := (coreOf (issueSlot s n (.v o)) n).regs.stoch
          errors := (coreOf (issueSlot s n (.v o)) n).regs.errors } } := by
      rw [hr]
      conv => lhs; rw [hg]
      conv => rhs; rw [hg]
      rfl
    rwa [this] at hc

/-- A V operation whose effect is one V result. -/
theorem writesV_of_issues {s : State} {n : Nat} {o : VOp} (d : Nat) (v : BitVec 4096) (h : Issues s n (.v o))
    (he : effectSlot (freshCycle s n) n (envOf (freshCycle s n) n) (preIssue s n) (preIssue s n).inShadow (.v o)
      = modCoreOf (freshCycle s n) n
          (fun c => (c.vectorIssue (preIssue s n) o).resultV d (o.latency (isB0 (freshCycle s n))) v))
    (hw : (SlotOp.v o).writes.Nodup) : WritesV s (issueSlot s n (.v o)) n o d v := by
  obtain ⟨hc, u, hr⟩ := vectorIssued_of_issues (fun c => c.resultV d (o.latency (isB0 (freshCycle s n))) v) h he hw
    (fun c => rfl)
  refine ⟨?_, ?_, ?_, ?_, ?_, ?_⟩
  · simp [Core.v, hr, Core.resultV, Core.setReady, Core.setV]
  · simp [Core.readyAt, hr, Core.resultV, Core.setReady, Core.setV, Core.vectorIssue]
  · intro r hne
    simp [Core.v, hr, Core.resultV, Core.setReady, Core.setV, Core.vectorIssue, Table.look_put_other _ _ _ _ hne]
  · intro r hne
    simp [Core.readyAt, hr, Core.resultV, Core.setReady, Core.setV, Core.vectorIssue, Table.look_put_other _ _ _ _ hne]
  · intro r
    simp [hr, Core.resultV, Core.setReady, Core.setV, Core.vectorIssue]
  · rw [hr]; exact hc

end Sys2Proof.Machine
end

