-- ==== Sys2Proof/Laws/Legs.lean ====
section
/-! SUPPORT. Legs whose image has no table of link entries. -/

namespace Sys2Proof.Machine

/-- An image without the section of a kind has no entry in it. -/
theorem Leg.tableEntry_none {l : Leg} {kind : Nat} (h : l.part kind = none) (i : Nat) : l.tableEntry kind i = 0 := by
  simp [Leg.tableEntry, h]

/-- A leg without a table of link entries books no link. -/
theorem Leg.bookedLinks_nil {l : Leg} (h : l.part 0xA = none) : l.bookedLinks = [] := by
  have entry : ∀ k e, (l.linkAt k e).valid = false := fun k e => by
    simp [Leg.linkAt, Leg.tableEntry_none h, readLinkEntry, bitAt]
  simp [Leg.bookedLinks, Leg.validLinks, entry]

/-- A leg that books no link is under every latency cap. -/
theorem latencyAbove_none {l : Leg} (s : State) (h : l.part 0xA = none) : latencyAbove s l = false := by
  simp [latencyAbove, Leg.bookedLinks_nil h]

end Sys2Proof.Machine
end

