-- ==== Sys2Proof/Laws/Units.lean ====
section
/-! SUPPORT. What the updates of the fields that hold waiting work do: the PMBus, booked detour bales, accesses that wait for their
memory, and the steward's writes. -/

namespace Sys2Proof.Machine

variable (s : State)

@[simp] theorem takeBus_pmbOwnN : (takeBus s).pins.pmbOwnN = false := rfl
@[simp] theorem releaseBus_pmbOwnN : (releaseBus s).pins.pmbOwnN = true := rfl
@[simp] theorem takeBus_power : (takeBus s).power = s.power := rfl
@[simp] theorem releaseBus_power : (releaseBus s).power = s.power := rfl
@[simp] theorem takeBus_boot : (takeBus s).boot = s.boot := rfl
@[simp] theorem releaseBus_boot : (releaseBus s).boot = s.boot := rfl

@[simp] theorem noteDetoured_detoured (l n i : Nat) :
    (noteDetoured s l n i).fabric.detoured = (l, n, i) :: s.fabric.detoured := rfl
@[simp] theorem noteDetoured_units (l n i : Nat) : (noteDetoured s l n i).fabric.units = s.fabric.units := rfl
@[simp] theorem noteDetoured_arrived (l n i : Nat) : (noteDetoured s l n i).fabric.arrived = s.fabric.arrived := rfl
@[simp] theorem noteDetoured_od (l n i : Nat) : (noteDetoured s l n i).od = s.od := rfl
@[simp] theorem noteDetoured_links (l n i : Nat) : (noteDetoured s l n i).links = s.links := rfl

/-- A steward's write in a sealed range changes nothing (Table 15.6). -/
theorem stewardWrite_sealed {a : Nat} {b : Bytes} (h : (sealedAt s a b.length).isSome) : stewardWrite s a b = s := if_pos h

theorem stewardWrite_open {a : Nat} {b : Bytes} (h : sealedAt s a b.length = none) : stewardWrite s a b = extWrite s a b := by
  simp [stewardWrite, h]

/-- An access either is served at once or takes the last place of those that wait (R161). -/
theorem takeAccess_cases (x : MemAccess) :
    (takeAccess s x = serveAccess s x ∧ accessWaits s s.ext.waiting (x.ifaces s) = false)
      ∨ (takeAccess s x = { s with ext := { s.ext with waiting := s.ext.waiting ++ [x] } }
          ∧ accessWaits s s.ext.waiting (x.ifaces s) = true) := by
  cases h : accessWaits s s.ext.waiting (x.ifaces s) <;> simp [takeAccess, h]

@[simp] theorem serveWaiting_none (h : s.ext.waiting = []) : serveWaiting s = { s with ext := { s.ext with waiting := [] } } := by
  simp [serveWaiting, h]

end Sys2Proof.Machine
end

