-- ==== Sys2Proof/WellFormed.lean ====
section
/-! DEFINITION. What a command's operands must be for the command to be one that the device can meet: lengths and ranges
that the operand types do not carry. Every meaning is total; these checks say which commands stand for an event of the
spec. -/

namespace Sys2Proof

/-- A start message has an axis of Table 11.1, byte-sized status and at most 16 notices (Table 13.6). -/
def StartMsg.wf (m : StartMsg) : Bool := decide (m.axis < 4) && decide (m.status < 256) && decide (m.notices.length ≤ 16)

/-- A substitution list holds whole addresses, 16 at most (R276). -/
def substitutionWf (b : Bytes) : Bool := b.length % 4 = 0 && b.length ≤ 64

/-- A glaze request is whole lines, a header line at least (R173). -/
def requestWf (b : Bytes) : Bool := b.length % 64 = 0 && 64 ≤ b.length

/-- A bank write names a target of its bank (R77): a refusal with a code of Table 3.11 covers the rest. -/
def targetWf : BankTarget → Bool
  | .bundle a _ => decide (a < 2 ^ 16)
  | .stageTable i _ => decide (i < 2 ^ 16)

/-- A host access has a size a PCIe or CXL.mem transaction can have: 1 to 4,096 bytes (R335). -/
def accessWf (n : Nat) : Bool := 1 ≤ n && n ≤ 4096

/-- Is a command well formed? -/
def wellFormed : Instr → Bool
  | .glazeRequestArrive _ _ r => requestWf r
  | .bankWrite _ _ t _ => targetWf t
  | .descriptorWrite _ _ d _ _ => decide (d < 256)
  | .postVote _ _ p => p.length = 144
  | .substitution _ a => substitutionWf a
  | .prepare _ m => m.wf
  | .ack _ m => m.wf
  | .go _ m => m.wf
  | .abort _ m => m.wf
  | .hostWrite _ _ p => accessWf p.length
  | .hostRead _ _ n => accessWf n
  | .frameReceive _ f _ => decide (f.length ≤ 1522)
  | .write _ _ _ _ v => decide (v.length ≤ 1024)
  | .segmentWrite _ _ _ _ _ _ v => decide (v.length ≤ 1024)
  | .dictionaryFrame _ p => decide (p.length ≤ 136)
  | .bar2Access _ _ n w => accessWf n && (match w with
    | some b => b.length = n
    | none => true)
  | .shapeWrite _ _ _ v => decide (v.length ≤ 65536)
  | .attestationNonce _ n => decide (n.length ≤ 65536)
  | .trustedPublisherWrite _ _ k => decide (k.length ≤ 65536)
  | .chunk _ p => decide (p.length ≤ 65536)
  | .pmbusAlert _ r => decide (r.length ≤ 16)
  | _ => true

end Sys2Proof
end

