-- ==== Sys2Proof/Tests/Slice0.lean ====
section
/-! SUPPORT. Tests: a concrete state and operands for every statement with hypotheses (`witness_<Statement>`), ill-formed commands
that `WellFormed` refuses, worked examples of the spec and single steps. -/

open Sys2Proof Sys2Proof.Machine
namespace Sys2Proof.Tests

-- The kernel checks these one after another; theorems elaborated at once would each hold a thread meanwhile.
set_option Elab.async false

/-- A device in READY, with its clocks, firmware, ring port 0 and host port. -/
def readyOd : Table Nat :=
  [(od 0x1001 1, 3), (od 0x1100 3, 1), (od 0x2420 1, 15), (od 0x2800 9, 1), (od 0x3A00 2, 7), (od 0x5300 1, 1), (od 0x5300 2, 1),
   (od 0x5800 1, 2)]
def ready : State := { State.reset with
  od := readyOd, boot := { State.reset.boot with runningFirmware := true } }

/-- The same device with more objects set. -/
def set (s : State) (l : List (Nat × Nat)) : State := l.foldl (fun s x => odSet s x.1 x.2) s

/-- Regions: a plain one of 64 KiB at 0 for core writes, a green page at 0x10000 with its back copy at 0x20000, and a plain one of
64 KiB at 0x30000 for fills. -/
def plainRegion : BitVec 128 := BitVec.ofNat 128 (2 ^ 127 + 16 * 2 ^ 102)
def greenRegion : BitVec 128 := BitVec.ofNat 128 (2 ^ 127 + 2 ^ 125 + 16 * 2 ^ 113 + 2 ^ 102 + 32 * 2 ^ 91)
def fillRegion : BitVec 128 := BitVec.ofNat 128 (2 ^ 127 + 2 ^ 124 + 48 * 2 ^ 113 + 16 * 2 ^ 102)

/-- A depot descriptor of one line: external line 0x4000, scratchpad line 0x30000. -/
def oneLine : BitVec 256 := BitVec.ofNat 256 (2 ^ 255 + 256 * 2 ^ 196 + 0xC00 * 2 ^ 179 + 2 ^ 168 + 2 ^ 156 + 2 ^ 144 + 2 ^ 132)

/-- A core in its stage. -/
def workingCore : Core := { Core.reset with
  state := .running, powered := 15, regions := [(0, plainRegion), (1, greenRegion), (2, fillRegion)], waybill := 8, done := 1, issuedInStage := 1
  descriptors := [(0, oneLine), (32, oneLine)] }

/-- A device in a stage whose logical core 0 runs. -/
def staged (c : Core) : State := { ready with
  od := (od 0x1001 1, 4) :: readyOd.drop 1
  stage := { State.reset.stage with phase := .stage, length := 100000, rest := 1000 }
  cores := [(0, c)] }

/-- The conditions of `Issues` as a check. -/
def issuesNow (s : State) (n : Nat) (o : SlotOp) : Bool :=
  let t := freshCycle s n
  let c := coreOf t n
  canIssue t n && !overrunHalts t n && (singleFaults c o).isEmpty
    && (match c.region with
      | none => true
      | some g => g.resolved || decide (g.shadowBundles < 6))
    && (c.checkSlot (envOf t n) c.inShadow o).isEmpty && (depotFindings t c o).isEmpty
    && (c.deferred.all fun d => decide (c.cycle ≤ d.cycle)) && (loadError c o).isNone && !c.registerError o

theorem issues_of_check {s : State} {n : Nat} {o : SlotOp} (h : issuesNow s n o = true) : Issues s n o := by
  simp only [issuesNow, Bool.and_eq_true, Bool.not_eq_true', List.isEmpty_iff, Option.isNone_iff_eq_none] at h
  obtain ⟨⟨⟨⟨⟨⟨⟨⟨h1, h2⟩, h3⟩, h4⟩, h5⟩, h6⟩, h7⟩, h8⟩, h9⟩ := h
  refine ⟨h1, h2, h3, fun g hg hr => ?_, h5, h6, fun d hd => of_decide_eq_true (List.all_eq_true.mp h7 d hd), h8, h9⟩
  rw [hg] at h4
  simpa [hr] using h4

/-- The operations of a list issue in a state. -/
theorem all_issue {s : State} {n : Nat} {l : List SlotOp} (h : l.all (issuesNow s n) = true) : ∀ o ∈ l, Issues s n o :=
  fun o ho => issues_of_check (List.all_eq_true.mp h o ho)

theorem witness_StepRunsFront : ({ ready with pending := [.loadDone] } : State).pending = .loadDone :: [] := rfl

theorem witness_ScalarResults :
    ∀ o ∈ ([.s (.add 1 2 3), .s (.sub 1 2 3), .s (.and 1 2 3), .s (.or 1 2 3), .s (.xor 1 2 3), .s (.shl 1 2 3),
      .s (.shr 1 2 3), .s (.sar 1 2 3), .s (.mul 1 2 3), .s (.mov 1 2 0), .s (.addi 1 2 5), .s (.movi 1 0 5),
      .s (.shli 1 2 5)] : List SlotOp), Issues (staged workingCore) 0 o := all_issue (by decide)

theorem witness_CounterAndStageReads :
    ∀ o ∈ ([.s (.csrc 1 2), .s (.cadd 1 5), .s (.crd 1 2), .s (.stg 1 3)] : List SlotOp), Issues (staged workingCore) 0 o :=
  all_issue (by decide)

theorem witness_AddressAndLoop :
    ∀ o ∈ ([.s (.agb 1 2 5 true), .s (.agb 1 0 5 false), .s (.ags 1 3 5), .s (.loop 0 4)] : List SlotOp),
      Issues (staged workingCore) 0 o := all_issue (by decide)

theorem witness_CompareResult :
    (∀ o ∈ ([.s (.cmp 1 5 0 0 2 0), .s (.cmp 1 0 1 1 2 5), .s (.cmp 1 1 3 2 2 0)] : List SlotOp),
      Issues (staged workingCore) 0 o) ∧ IsNan64 0x7FF8000000000000 :=
  ⟨all_issue (by decide), by unfold IsNan64; decide⟩

theorem witness_BranchOpens :
    ∀ o ∈ ([.s (.br 1 true true 8 1 20), .s (.br 1 false false 8 2 20)] : List SlotOp), Issues (staged workingCore) 0 o :=
  all_issue (by decide)

/-- Fields of a lane operation: an element type, a storage format, d = 1, a = 2 and the sources it reads. -/
def lane (type : BitVec 3) (b c : BitVec 5) (fmt : BitVec 4) : VFields := ⟨type, 1, 2, b, c, 0, fmt, 0⟩

theorem witness_VectorResults :
    ∀ o ∈ ([.v (.lane .vadd (lane 0 3 0 0)), .v (.lane .vsub (lane 1 3 0 0)), .v (.lane .vmul (lane 5 3 0 0)),
      .v (.lane .vfma (lane 3 3 4 0)), .v (.lane .vmin (lane 1 3 0 0)), .v (.lane .vmax (lane 1 3 0 0)),
      .v (.lane .vcmp (lane 1 3 0 0)), .v (.lane .vsel (lane 4 3 4 0)), .v (.lane .vand (lane 4 3 0 0)),
      .v (.lane .vor (lane 5 3 0 0)), .v (.lane .vxor (lane 6 3 0 0)), .v (.lane .vshl (lane 4 3 0 0)),
      .v (.lane .vshr (lane 4 3 0 0)), .v (.lane .vsar (lane 4 3 0 0)), .v (.lane .vexp2 (lane 1 0 0 0)),
      .v (.lane .vlog2 (lane 1 0 0 0)), .v (.lane .vrcp (lane 1 0 0 0)), .v (.lane .vrsq (lane 1 0 0 0)),
      .v (.lane .vcvt (lane 0 0 0 1)), .v (.lane .vpack (lane 1 3 0 3)), .v (.lane .vunpk (lane 1 3 0 5)),
      .v (.lane .vbcx (lane 4 0 0 0)), .v (.lane .vmov (lane 6 0 0 0))] : List SlotOp), Issues (staged workingCore) 0 o :=
  all_issue (by decide)

theorem witness_IntegerLanes : (lane 4 3 0 0).type = 4 ∧ (lane 5 3 0 0).type = 5 ∧ (lane 6 3 0 0).type = 6
    ∧ 32 * 127 < 4096 ∧ 16 * 255 < 4096 ∧ 8 * 511 < 4096 := by decide

theorem witness_VectorOthers :
    (∀ o ∈ ([.v (.imm 1 3 7), .v (.lane .vred (lane 4 2 0 0)), .v (.lane .vpack (lane 1 3 0 5)),
      .v (.lane .vpack (lane 1 3 0 9))] : List SlotOp), Issues (staged workingCore) 0 o)
    ∧ (lane 1 3 0 5).d ≠ (lane 1 3 0 5).b := ⟨all_issue (by decide), by decide⟩

theorem witness_LoadResults :
    ∀ o ∈ ([.l (.ld 3 0 0), .l (.ldx 3 0 1)] : List SlotOp), Issues (staged workingCore) 0 o := all_issue (by decide)

/-- The core with an open branch region that is not resolved. -/
def shadowCore : Core := { workingCore with region := some {
  branch := 0, n := 20, t := 1, j := 30, k := 1, sense := true, predict := true, issued := 0, resolution := 5, resolved := false
  taken := true, counter := 0, pathDone := false, discardUntil := 0, shadowBundles := 0, saved := workingCore.regs, hold := []
  clears := [], held := none, savedDone := 1, savedFlight := 0, savedIssued := 1, savedStores := [], levels := 0, slots := [] } }

theorem witness_StoreResults :
    (∀ o ∈ ([.t (.st 3 0 0), .t (.stx 3 0 1)] : List SlotOp),
      Issues (staged workingCore) 0 o ∧ Issues (staged shadowCore) 0 o)
    ∧ (preIssue (staged workingCore) 0).inShadow = false ∧ (preIssue (staged shadowCore) 0).inShadow = true
    ∧ ((preIssue (staged workingCore) 0).regionAt 0 512).map (·.mode) = some .plain
    ∧ ((preIssue (staged workingCore) 0).regionAt 0x10000 64).map (fun r => (r.mode, r.base + r.size, r.back))
        = some (.green, 0x11000, 0x20000) :=
  ⟨fun o ho => ⟨all_issue (l := [.t (.st 3 0 0), .t (.stx 3 0 1)]) (by decide +kernel) o ho,
    all_issue (l := [.t (.st 3 0 0), .t (.stx 3 0 1)]) (by decide +kernel) o ho⟩, by decide, by decide, by decide, by decide⟩

theorem witness_WaitResults :
    ∀ o ∈ ([.y (.wwb true 3), .y (.wwb false 3), .y (.wdp true false 0)] : List SlotOp),
      Issues (staged { workingCore with cycle := 9 }) 0 o ∧ Issues (staged { shadowCore with cycle := 4 }) 0 o :=
  fun o ho => ⟨all_issue (l := [.y (.wwb true 3), .y (.wwb false 3), .y (.wdp true false 0)]) (by decide +kernel) o ho,
    all_issue (l := [.y (.wwb true 3), .y (.wwb false 3), .y (.wdp true false 0)]) (by decide +kernel) o ho⟩

def notIssued : State := staged { workingCore with issuedInStage := 0 }
def notDone : State := staged { workingCore with done := 0 }
def doneBefore : State := staged { workingCore with doneAt := [(0, 7)], cycle := 9 }

theorem witness_DepotWait :
    canIssue (freshCycle notIssued 0) 0 = true ∧ overrunHalts (freshCycle notIssued 0) 0 = false
    ∧ (preIssue notIssued 0).inShadow = false ∧ (preIssue notIssued 0).deferred = []
    ∧ (preIssue notIssued 0).haltTaken = false ∧ (preIssue notIssued 0).issuedInStage.getLsbD (wdpIndex true 23) = false
    ∧ (preIssue notDone 0).issuedInStage.getLsbD 0 = true ∧ (preIssue notDone 0).done.getLsbD 0 = false
    ∧ (preIssue doneBefore 0).done.getLsbD 0 = true
    ∧ Table.look (preIssue doneBefore 0).doneAt 0 0 + 2 ≤ (preIssue doneBefore 0).cycle := by decide

theorem witness_DepotStarts :
    ∀ o ∈ ([.l (.dld 0 false 0), .l (.dld 0 true 2), .t (.dst 0 false 0)] : List SlotOp),
      Issues (staged workingCore) 0 o ∧ Issues (staged shadowCore) 0 o :=
  fun o ho => ⟨all_issue (l := [.l (.dld 0 false 0), .l (.dld 0 true 2), .t (.dst 0 false 0)]) (by decide +kernel) o ho,
    all_issue (l := [.l (.dld 0 false 0), .l (.dld 0 true 2), .t (.dst 0 false 0)]) (by decide +kernel) o ho⟩

/-- An M operation into A0 of 64 k-steps of BF16, from scratchpad 0 and 0x4000. -/
def product (enter : Option Nat) : MatrixOp := ⟨false, false, 1, 1, 64, 0, 0x4000, 0, 0, 0, enter⟩

theorem witness_MatrixIssue :
    (∀ o ∈ ([.m (.mma false false 1 1 64 0 0), .m (.drain true 0 0 0 0 3 0), .m (.drain true 2 1 0 5 3 0)] : List SlotOp),
      Issues (staged workingCore) 0 o)
    ∧ (preIssue (staged workingCore) 0).queued = [] ∧ (preIssue (staged workingCore) 0).mops = []
    ∧ Issues (staged { workingCore with mops := [product (some 0)] }) 0 (.m (.mma true false 1 1 64 0 0))
    ∧ (preIssue (staged { workingCore with mops := [product (some 0)] }) 0).queued ≠ [] :=
  ⟨all_issue (by decide), by decide, by decide, issues_of_check (by decide), by decide⟩

/-- Bundles: a MOV of X3 to X2 beside an LDX to X4; a post bundle with no operation; an empty bundle. -/
def movLdx : BitVec 256 := BitVec.ofNat 256 (2 ^ 254 + 2 ^ 253 + 2 ^ 251 + 2 ^ 250
  + (0x0A * 2 ^ 34 + 2 * 2 ^ 31 + 3 * 2 ^ 28) * 2 ^ 200 + (2 * 2 ^ 35 + 4 * 2 ^ 32 + 2 ^ 10) * 2 ^ 72)
def emptyBundle : BitVec 256 := BitVec.ofNat 256 (63 * 2 ^ 250)
def joinBundle : BitVec 256 := BitVec.ofNat 256 (63 * 2 ^ 250 + 3 * 2 ^ 245)
def postBundle : BitVec 256 := BitVec.ofNat 256 (63 * 2 ^ 250 + 2 * 2 ^ 247)

/-- The core at a bundle of its bank. -/
def atBundle (b : BitVec 256) (c : Core) : Core := { c with hasBank := true, bundles := [(0, b)], pc := 0, entered := true }

/-- The core at the join of a resolved region whose path is done. -/
def joinCore : Core := atBundle joinBundle { shadowCore with
  region := shadowCore.region.map fun g => { g with branch := 0, j := 0, n := 2, resolved := true, pathDone := true, counter := 3 } }

theorem witness_BundleIssues :
    BundleReady (freshCycle (staged (atBundle movLdx workingCore)) 0) 0 false
    ∧ (bundleAt (freshCycle (staged (atBundle movLdx workingCore)) 0) 0).ops = [.s (.mov 2 3 0), .l (.ldx 4 0 1)]
    ∧ BundleReady (freshCycle (staged (atBundle postBundle workingCore)) 0) 0 false
    ∧ (bundleAt (freshCycle (staged (atBundle postBundle workingCore)) 0) 0).header.cls = 2
    ∧ (coreOf (staged (atBundle postBundle workingCore)) 0).stall = none
    ∧ nextClass (coreOf (staged (atBundle postBundle workingCore)) 0) = 2
    ∧ (coreOf (staged (atBundle postBundle workingCore)) 0).region = none := by
  unfold BundleReady; simp only [Bool.false_eq_true, if_false]
  refine ⟨⟨?_, ?_, ?_, ?_, ?_, ?_⟩, ?_, ⟨?_, ?_, ?_, ?_, ?_, ?_⟩, ?_, ?_, ?_, ?_⟩ <;> decide

theorem witness_BundleIssues_nest :
    branchOf (bundleAt (staged (atBundle movLdx workingCore)) 0).ops = none
    ∧ stepNest (bundleAt (staged (atBundle movLdx workingCore)) 0).header.ends 0 4 0
        (loopsAfter (coreOf (freshCycle (staged (atBundle movLdx workingCore)) 0) 0) (bundleAt (staged (atBundle movLdx workingCore)) 0).ops)
      = some ((coreOf (staged (atBundle movLdx workingCore)) 0).loops, 1) := by decide

theorem witness_BundleIssues_join : BundleReady (freshCycle (staged joinCore) 0) 0 true
    ∧ branchOf (bundleAt (freshCycle (staged joinCore) 0) 0).ops = none := by
  unfold BundleReady; simp only [if_true]
  refine ⟨⟨?_, ?_, ?_, ?_, ?_, _, rfl, ?_⟩, ?_⟩ <;> decide

/-- A core that waits with an operation. -/
def waitsWith (cause resource : Nat) (o : SlotOp) (c : Core) : Core := { c with stall := some ⟨cause, resource, some o⟩, cycle := 9 }

theorem witness_StallReleases :
    ∀ w ∈ [((4 : Nat), (3 : Nat), SlotOp.s (.add 1 2 3)), (1, 3, .y (.wwb true 3)), (2, 0, .y (.wdp true false 0)),
        (3, 3, .y (.wwb true 3))],
      (coreOf (staged (waitsWith w.1 w.2.1 w.2.2 workingCore)) 0).stall = some ⟨w.1, w.2.1, some w.2.2⟩
      ∧ inStage (staged (waitsWith w.1 w.2.1 w.2.2 workingCore)) = true
      ∧ mayIssue (coreOf (modCoreOf (staged (waitsWith w.1 w.2.1 w.2.2 workingCore)) 0 fun c => { c with stall := none }) 0) = true
      ∧ Issues (modCoreOf (staged (waitsWith w.1 w.2.1 w.2.2 workingCore)) 0 fun c => { c with stall := none }) 0 w.2.2 := by
  intro w hw
  simp only [List.mem_cons, List.not_mem_nil, or_false] at hw
  rcases hw with rfl | rfl | rfl | rfl <;> exact ⟨by decide, by decide, by decide, issues_of_check (by decide +kernel)⟩

/-- The region of `shadowCore` at its resolution cycle, K[1] false and the branch to run where K[1] holds: predicted wrong as it
stands, right with `taken` false. -/
def dueRegion (taken : Bool) (c : Core) : Core :=
  { c with cycle := 5, region := c.region.map fun g => { g with taken := taken } }

theorem witness_BranchResolves : ∀ taken : Bool,
    ∃ g, (coreOf (staged (dueRegion taken shadowCore)) 0).region = some g
      ∧ (coreOf (staged (dueRegion taken shadowCore)) 0).state = .running ∧ g.resolved = false
      ∧ g.resolution ≤ (coreOf (staged (dueRegion taken shadowCore)) 0).cycle
      ∧ (decide (Table.look g.saved.k false g.k = g.sense) = g.taken ↔ taken = false)
      ∧ g.hold = [] ∧ g.held = none
      ∧ (coreOf (staged (dueRegion taken shadowCore)) 0).depots = [] := by
  intro taken; cases taken <;> exact ⟨_, rfl, by decide⟩

/-- A depot operation of one line, none or all of it moved, of descriptor d. -/
def walk (d next : Nat) : DepotOp := ⟨d, oneLine, 0, next, false, false, [], false⟩
def walking (o : DepotOp) : Core := { workingCore with depots := [o], inFlight := BitVec.ofNat 56 (2 ^ o.desc) }

theorem witness_DepotWalks :
    (coreOf (staged (walking (walk 0 0))) 0).depots.find? (fun x => x.desc = 0) = some (walk 0 0)
    ∧ ((readDepot oneLine).line 0 0).1.toNat = 0x4000 ∧ ((readDepot oneLine).line 0 0).2.toNat = 0x30000
    ∧ stageTraffic (staged (walking (walk 0 0))) = true
    ∧ depotMayMove (staged (walking (walk 0 0))) (coreOf (staged (walking (walk 0 0))) 0) (walk 0 0) = true
    ∧ (coreOf (staged (walking (walk 0 0))) 0).mayTransfer
        (scratchBank ((coreOf (staged (walking (walk 0 0))) 0).writtenCopy 0x30000)) portDepot = true
    ∧ lineBad (staged (walking (walk 0 0))) 0x4000 = 0
    ∧ (coreOf (staged (walking (walk 0 0))) 0).writeBreach 0x30000 64 true = false
    ∧ ((coreOf (staged (walking (walk 0 0))) 0).regionAt 0x30000 64).map (·.mode) = some .plain
    ∧ (coreOf (staged (walking (walk 32 0))) 0).depots.find? (fun x => x.desc = 32) = some (walk 32 0)
    ∧ stageTraffic (staged (walking (walk 32 0))) = true
    ∧ depotMayMove (staged (walking (walk 32 0))) (coreOf (staged (walking (walk 32 0))) 0) (walk 32 0) = true
    ∧ (coreOf (staged (walking (walk 32 0))) 0).mayTransfer
        (scratchBank ((coreOf (staged (walking (walk 32 0))) 0).readCopy 0x30000)) portDepot = true
    ∧ (coreOf (staged (walking (walk 32 0))) 0).readError 0x30000 64 = none ∧ (readDepot oneLine).kind = 0
    ∧ sendsRecords (staged (walking (walk 32 0))) (walk 32 0) = none
    ∧ contextOf (staged (walking (walk 32 0))) 0x4000 = none ∧ greenAt (staged (walking (walk 32 0))) 0x4000 = none
    ∧ locate (staged (walking (walk 32 0))) 0x4000 ≠ none ∧ 0x4000 % 64 = 0
    ∧ (coreOf (staged (walking (walk 0 1))) 0).depots.find? (fun x => x.desc = 0) = some (walk 0 1)
    ∧ (walk 0 1).finished = true := by decide +kernel

/-- External line 0x4000 corrupted and listed for a re-read, its core working. -/
def reading : State := { staged workingCore with
  ext := { (staged workingCore).ext with bad := [(0x100, 1)], rereads := [(0x4000, 0)] } }

/-- A core one of whose mirror writes waits for bank 3. -/
def mirroring : Core := { workingCore with outer := [(3, 4)], mirrors := [(3, 0x1000, zeroBytes 64)] }

theorem witness_MemoryUpkeep :
    ((locate reading 0x4000).map (·.iface)) = some 4 ∧ (∃ r ∈ reading.ext.rereads, r.1 = 0x4000)
    ∧ (coreOf reading 0).scrubs 0x10000 = true ∧ (coreOf reading 0).scrubs 0x10FF8 = true
    ∧ planWaits reading 16 = false ∧ planWaits (staged (walking (walk 0 0))) 4 = true
    ∧ mirroring.portFree 3 = true ∧ mirrorFirst (Table.look mirroring.outer 0 3 ||| 8) = true
    ∧ (mirroring.mirrors.find? fun m => m.1 = 3) ≠ none ∧ mirrorFirst (Table.look mirroring.outer 0 3 ||| 2) = false
    ∧ ({ mirroring with outerFree := [(3, 1)] } : Core).portFree 3 = false := by decide +kernel

/-- The request of a ledger reduction of one FP32 body element, answered at core 0's fill region with waybill bit 5. -/
def reduceRequest : Bytes :=
  leBytes (3 * 2 ^ 120 + 2 ^ 108 + 5 * 2 ^ 98 + 0xC00 * 2 ^ 72 + 7 * 2 ^ 32 + 2 ^ 427) 64 ++ leBytes 0x3F800000 64
/-- A local page copy of one pair inside engine 0's window. -/
def copyRequest (op : Nat) : Bytes :=
  leBytes (op * 2 ^ 120 + 2 ^ 108 + 2 ^ 505) 64 ++ leBytes (0x20000000000 + 0x20000010000 * 2 ^ 64) 64

/-- The same copy to engine 0 of device 1. -/
def remoteRequest (op : Nat) : Bytes := leBytes (leNat (copyRequest op) + 2 ^ 504 + 2 ^ 484) 128

/-- The staged device whose engine 0 is e, with 1 GiB of local share. -/
def engineHolds (e : Engine) : State :=
  setEngine (set (staged workingCore) [(od 0x4010 1, 1), (od 0x4100 2, 1)]) 0 e

theorem witness_GlazeQueues :
    plansServed (engineHolds Engine.reset) = true ∧ plansServed ready = false ∧ copyRequest 4 ≠ [] ∧ (copyRequest 4).length % 64 = 0 ∧ (copyRequest 4 ++ [7]).take (copyRequest 4).length = copyRequest 4
    ∧ (readGlazeHeader (copyRequest 4)).op = 4 ∧ (readGlazeHeader (copyRequest 5)).op = 5
    ∧ Engine.reset.dynamic.length < 4 ∧ (List.replicate 9 (⟨none, reduceRequest, 0⟩ : GlazeReq)).length < 10
    ∧ odGet (engineHolds { Engine.reset with waiting := [⟨none, reduceRequest, 0⟩] }) (od (engineIndex 0) 2) = 1 := by decide +kernel

/-- The engine holds the reduction. -/
def reducing : State := engineHolds { Engine.reset with held := [⟨none, reduceRequest, 0⟩] }

theorem witness_GlazeReplies :
    plansServed reducing = true ∧ (readGlazeHeader reduceRequest).op = 3 ∧ (readGlazeHeader reduceRequest).core = 0
    ∧ (readGlazeHeader reduceRequest).waybill = 5 ∧ (readGlazeHeader reduceRequest).reply = 0x30000
    ∧ (performPlan reducing 0 reduceRequest).2.status = 0 ∧ (performPlan reducing 0 reduceRequest).2.data.length = 24
    ∧ (∀ i, i < 2 → ((coreOf (performPlan reducing 0 reduceRequest).1 0).regionAt (0x30000 + 64 * i) 64).map (fun a => (a.mode, a.fill))
          = some (.plain, true)
        ∧ (coreOf (performPlan reducing 0 reduceRequest).1 0).guarded (boundsOf (0x30000 + 64 * i : Nat) 64) = false)
    ∧ (performPlan reducing 0 (reduceRequest.take 64)).2.status = 1 := by decide +kernel

theorem witness_PageCopies : ∀ op ∈ [(4 : Nat), 5],
    (readGlazeHeader (copyRequest op)).op = op ∧ copyValid (engineHolds Engine.reset) 0 (copyRequest op) = true
    ∧ (readCopy (readGlazeHeader (copyRequest op)).params).n = 1
    ∧ (readCopy (readGlazeHeader (copyRequest op)).params).remote = false ∧ Engine.reset.checkError = false
    ∧ copyBad (engineHolds Engine.reset) 0x20000000000 0 1 = none ∧ copyBad (engineHolds Engine.reset) 0x20000000000 1023 1 = none
    ∧ (readCopy (readGlazeHeader (remoteRequest op)).params).remote = true
    ∧ (op = 4 → copyValid (engineHolds Engine.reset) 0 (remoteRequest op) = true) ∧ (readCopy (readGlazeHeader (remoteRequest op)).params).n = 1
    ∧ copyBad (engineHolds Engine.reset) (copyPair (glazeBody (remoteRequest op)) 0).1 1022 2 = none
    ∧ copyPair (glazeBody (copyRequest op)) 0 = (0x20000000000, 0x20000010000)
    ∧ firstBad (engineHolds Engine.reset) 0x20000000000 65536 = none
    ∧ pageRefused (engineHolds Engine.reset) 0 0x20000010000 65536 = false
    ∧ odGet (engineHolds Engine.reset) (od (engineIndex 0) 2) = 1 := by decide +kernel

/-- A leg image of entries (address, bytes, value). -/
def image (l : List (Nat × Nat × Nat)) : Memory :=
  l.flatMap fun x => ((countFrom 0 x.2.1).map fun i => (x.1 + i, BitVec.ofNat 8 (x.2.2 / 256 ^ i))).filter (·.2 ≠ 0)

/-- The device runs the leg of an image whose tables of kinds 0x0B and 0x0C start at 0x10000. -/
def tables (l : List (Nat × Nat × Nat)) (s : State) : State :=
  setLeg s (runningSlot s) { Leg.reset with img := image ([(256, 2, 0xB), (264, 8, 0x10000), (272, 8, 2 ^ 32), (288, 2, 0xC), (296, 8, 0x10000), (304, 8, 2 ^ 32)] ++ l) }

/-- A mesh entry of one flit at row 0, stop 0, from the edge to an out port, from core cycle 0 on. -/
def meshOf (output : Nat) : State :=
  let s := tables [(0x10000 + 16 * (12 * 13 * 4096), 16, 2 ^ 127 + 5 * 2 ^ 121 + output * 2 ^ 118 + 0xC00 * 2 ^ 65 + 9 * 2 ^ 55)] (staged { workingCore with cycle := 9 })
  { s with fabric := { s.fabric with units := [(portKey 0 0 portEdge, [(0, .data 1)])] } }

/-- A die that a per-die reset has reset, and that no reload has made whole. -/
def resetDie0 (s : State) : State := { s with boot := { s.boot with resetDies := [0] } }

theorem witness_MeshAndDieMoves_mesh : ∀ output ∈ [portEast, portSouth, portOwn],
    (meshEntry (meshOf output) 0 0 0).valid = true ∧ (meshEntry (meshOf output) 0 0 0).step = odGet (meshOf output) (od 0x2410 3)
    ∧ (meshEntry (meshOf output) 0 0 1).step = 0
    ∧ stageTraffic (meshOf output) = true ∧ dieMoves (meshOf output) 0 = true ∧ (meshEntry (meshOf output) 0 0 0).count = 1 ∧ meshMoved (meshOf output) 0 0 0 = 0
    ∧ (meshEntry (meshOf output) 0 0 0).first + 4 ≤ stopCycle (meshOf output) 0 0
    ∧ portTaken (meshOf output) 0 0 (flitPorts (meshOf output) 0 0 (meshEntry (meshOf output) 0 0 0) (meshEntry (meshOf output) 0 0 0).first)
        ((meshEntry (meshOf output) 0 0 0).first + 4) = false
    ∧ linkEndsAt (meshOf output) 0 0x30000 = []
    ∧ meshClash (meshOf output) 0 0 0 (meshEntry (meshOf output) 0 0 0) 0 = false
    ∧ (meshEntry (meshOf output) 0 0 0).input = portEdge ∧ unitsAt (meshOf output) (portKey 0 0 portEdge) = [(0, .data 1)]
    ∧ (meshEntry (meshOf output) 0 0 0).output = output ∧ (meshEntry (meshOf output) 0 0 0).reduce = false
    ∧ logicalOf (meshOf output) 0 = some 0 ∧ endBroken (meshOf output) (meshEnd 0 0 0) = false
    ∧ (meshEntry (meshOf output) 0 0 0).address = 0x30000
    ∧ ((coreOf (meshOf output) 0).regionAt 0x30000 64).map (fun a => (a.mode, a.fill)) = some (.plain, true)
    ∧ ((coreOf (meshOf output) 0).regionAt (0x30000 + 64) 64).map (fun a => (a.mode, a.fill)) = some (.plain, true)
    ∧ (coreOf (meshOf output) 0).guarded (boundsOf 0x30000 64) = false
    ∧ (coreOf (meshOf output) 0).guarded (boundsOf (0x30000 + 64) 64) = false
    ∧ (3 ≠ odGet (meshOf output) (od 0x2410 3)) ∧ dieMoves (resetDie0 (meshOf output)) 0 = false := by decide +kernel

/-- A die-to-die send entry of one unit at side 0 and its receive entry at side 1, which hands it on. -/
def dieOf (far : Nat) : State :=
  let s := tables [(0x10000, 16, 2 ^ 127), (0x10000 + 16 * 16384, 16, 2 ^ 127 + 2 ^ 126 + far * 2 ^ 86)] (staged workingCore)
  { s with time := { s.time with counter := 48 }, fabric := { s.fabric with units := [(dieKey 0 0, [(0, .data 1)])] } }

theorem witness_MeshAndDieMoves_die : ∀ far ∈ [(0 : Nat), 1, 2],
    (dieEntry (dieOf far) 0 0).valid = true ∧ (dieEntry (dieOf far) 0 0).receive = false ∧ stageTraffic (dieOf far) = true
    ∧ (dieEntry (dieOf far) 0 0).count = 1 ∧ dieMoved (dieOf far) 0 0 = 0
    ∧ (dieOf far).stage.start + 4 * (dieEntry (dieOf far) 0 0).interval 0 + 48 ≤ now (dieOf far)
    ∧ unitsAt (dieOf far) (dieKey 0 0) = [(0, .data 1)] ∧ (dieEntry (dieOf far) 0 0).fromPort 0 = false
    ∧ dieMoves (dieOf far) (sideDie 0) = true ∧ dieMoves (dieOf far) (sideDie (farSide 0)) = true
    ∧ dieMoves (resetDie0 (dieOf far)) (sideDie 0) = false ∧ 0 + 48 ≤ now (dieOf far)
    ∧ dieClash (dieOf far) 0 0 (dieEntry (dieOf far) 0 0) ((dieEntry (dieOf far) 0 0).interval 0) = false
    ∧ (dieEntry (dieOf far) (farSide 0) 0).valid = true ∧ (dieEntry (dieOf far) (farSide 0) 0).receive = true
    ∧ (dieEntry (dieOf far) (farSide 0) 0).far = far ∧ (sideStop (farSide 0) (dieEntry (dieOf far) (farSide 0) 0).row).isSome := by
  decide +kernel

/-- A device with two devices on each of its first two axes, at coordinate 0, in a phase of its stage at a time. -/
def inDomain (p : Phase) (time : Nat) (s : State) : State :=
  let s := set s [(od 0x3A00 1, 0), (od 0x3A00 3, 3), (od 0x3A00 4, 2 + 2 * 32 + 1024)]
  { s with stage := { s.stage with phase := p }, time := { s.time with counter := BitVec.ofNat 64 time } }

/-- Votes of the peer at coordinate 1 on axis 0: of stage 0 of this device, and of another post. -/
def peerVote (number : Nat) : Bytes := leBytes number 8 ++ leBytes 0xFFFFFFFFFFFFFFFF 8 ++ zeroBytes 112

def voting : State := inDomain .rest 64 (staged workingCore)
def noVote : Vote := ⟨false, false, 0, 0, [], 0⟩
def overdue : State := inDomain .voted 100000
  { staged workingCore with vote := { State.reset.vote with own := some noVote, combined := some noVote } }

theorem witness_VotesFormAndArrive :
    voting.stage.phase = .rest ∧ now (inDomain .rest 63 ready) < ready.vote.t0 + 64 ∧ voting.vote.t0 + 64 ≤ now voting
    ∧ voting.boot.runningFirmware = true ∧ stewardRuns voting = true ∧ usedAxes voting = [0, 1] ∧ linePeers voting 0 ≠ [] ∧ voting.vote.received = []
    ∧ (∀ n ∈ [(0 : Nat), 9], (readVote (peerVote n)).relayed = false ∧ (readVote (peerVote n)).phase = 0
      ∧ peerOnAxis voting 0 1 = some 1 ∧ receivedVote voting 0 1 = none
      ∧ (peerCoordinate voting 0).getD (physicalOf voting 1) = 1
      ∧ ((readVote (peerVote n)).number = voting.vote.number ↔ n = 0)
      ∧ (readVote (peerVote n)).prevNumber = voting.vote.prevNumber ∧ (readVote (peerVote n)).prevFoul = voting.vote.prevFoul)
    ∧ overdue.stage.phase = .voted ∧ now (inDomain .voted 0 ready) < voteDeadline (inDomain .voted 0 ready) 0
    ∧ voteDeadline overdue 0 ≤ now overdue ∧ (usedAxes overdue)[0]? = some 0 ∧ (usedAxes overdue)[1]? = some 1
    ∧ (∃ q ∈ linePeers overdue 1, receivedVote overdue 1 q = none)
    ∧ ((linePeers overdue 0).filter fun q => (receivedVote overdue 0 q).isNone) = [1] := by decide +kernel

/-- Votes with the notices of a list. -/
def votes (l : List Nat) : Vote := ⟨false, false, 0, 0, l.map (BitVec.ofNat 32), 0⟩

theorem witness_VotesCombine : (16 : BitVec 32) ∈ (votes [16]).notices
    ∧ (16 : BitVec 32) ∉ (combineVotes (votes (countFrom 0 16)) (votes [16])).notices := by decide

def armed (errors : List Nat) (reloading : List Nat) : State :=
  { inDomain .armed 1000 (staged { workingCore with bankErrors := errors }) with
    stage := { (inDomain .armed 1000 ready).stage with nextStart := 1000, reloading := reloading } }

theorem witness_StageStarts :
    startDue (inDomain .armed 999 { ready with stage := { ready.stage with nextStart := 1000 } }) = false
    ∧ startDue (armed [] []) = true ∧ startDue (armed [8192] []) = true ∧ startDue (armed [] [0]) = true
    ∧ ((runningLeg (armed [] [])).schedule (armed [] []).stage.number.toNat).index (deviceStep (armed [] [])) = 0
    ∧ (armed [] []).stage.reloading = [] ∧ (armed [] [0]).stage.reloading ≠ []
    ∧ 8192 + (256 * flag (coreOf (armed [] []) 0).bank + 0) ∉ (coreOf (armed [] []) 0).bankErrors
    ∧ 8192 + (256 * flag (coreOf (armed [8192] []) 0).bank + 0) ∈ (coreOf (armed [8192] []) 0).bankErrors
    ∧ (inDomain .stage 99000 (staged workingCore)).stage.phase = .stage
    ∧ (staged workingCore).stage.start + (staged workingCore).stage.length - (staged workingCore).stage.rest
        ≤ now (inDomain .stage 99000 (staged workingCore))
    ∧ (coreOf (inDomain .stage 99000 (staged workingCore)) 0).state = .running := by decide +kernel

/-- One unacknowledged escalation, and its sink: MSI-X, or frames. -/
def escalated (path : Nat) : State :=
  { set (inDomain .none (if path = 3 then 0 else 125000000) ready) [(od 0x4400 1, path), (od 0x4400 2, 1), (od 0x1100 4, 0)] with escalations := [1] }

theorem witness_ReloadsAndResends :
    (∀ n ∈ (armed [] [0]).stage.reloading, Table.look (armed [] [0]).boot.dieReset 0 (n / 144) = 0)
    ∧ State.reset.escalations = [] ∧ (escalated 2).deliveredAt + 1250000 * odGet (escalated 2) (od 0x4400 8) ≤ now (escalated 2)
    ∧ now (escalated 3) < (escalated 3).deliveredAt + 1250000 * odGet (escalated 3) (od 0x4400 8)
    ∧ (escalated 1).deliveredAt + 1250000 * odGet (escalated 1) (od 0x4400 8) ≤ now (escalated 1) ∧ (escalated 2).escalations ≠ [] ∧ odGet (escalated 2) (od 0x4400 1) = 2
    ∧ odGet (escalated 2) (od 0x5800 1) ≠ 0 ∧ odGet (escalated 1) (od 0x4400 1) = 1
    ∧ odGet (escalated 1) (od 0x4400 2) ≠ 0 ∧ odGet (escalated 1) (od 0x1100 3) ≠ 0 ∧ odGet (escalated 1) (od 0x1100 4) = 0 := by
  decide +kernel

/-- A requester at the ring, and at BAR2. -/
def ring : Requester := ⟨.ring0, 0x112233445566⟩
def bar : Requester := ⟨.bar2, 1⟩

/-- An escalation record of a cause, and a device with 16 records, of which `cause` is the last one's. -/
def record (cause : Nat) : BitVec 256 := BitVec.ofNat 256 (cause * 2 ^ 232)
def queueFull (cause : Nat) : State := { ready with escalations := List.replicate 15 (record 1) ++ [record cause] }

theorem witness_EscalationQueue :
    ready.escalations.length < 16 ∧ (queueFull 1).escalations.length = 16 ∧ (queueFull 1).escalations.all (fun x => !recordNotice x) = true
    ∧ (queueFull 0x20).escalations = List.replicate 15 (record 1) ++ record 0x20 :: [] ∧ recordNotice (record 0x20) = true
    ∧ recordNotice (record 0x1F) = false ∧ Accepted ready ring (od 0x4400 5) (leBytes 7 2) false 0 ∧ ring.path ≠ .bar2 := by
  unfold Accepted; decide +kernel

/-- A device of a two-device line with link 0 in a state, its own end k, at time `time`. -/
def linked (st : Nat) (k : Link) (time : Nat) : State :=
  setLink (set (inDomain .none time ready) [(od 0x3800 1, st), (od 0x2403 1, 160), (od 0x281C 7, 2), (od 0x281D 7, 2)]) 0 k

/-- LOCKED to the master at logical address 1 through link 0, with an accumulator. -/
def locked (acc : Int) (time : Nat) : State :=
  let s := set (linked 2 Link.reset time) [(od 0x2400 2, 2), (od 0x2400 3, 1), (od 0x2400 4, 0), (od 0x3A00 2, 0)]
  { s with time := { s.time with acc := acc } }

theorem witness_RouteTimeKept :
    linkUp (locked 0 1000) 0 = true ∧ (readBeacon (1000 * 2 ^ 48 + 2 ^ 28)).master = masterAddress (locked 0 1000)
    ∧ discipline (locked 0 1000) = dsLocked ∧ parentLink (locked 0 1000) = some 0 ∧ (locked 0 1000).time.takeover = false
    ∧ odGet (locked 0 1000) (od 0x2400 4) = 0
    ∧ (beaconOffset (locked 0 1000) 0 (readBeacon (1000 * 2 ^ 48 + 2 ^ 28)) 16000).natAbs < 2 ^ 31
    ∧ linkUp (linked 0 Link.reset 0) 0 = false ∧ (locked oneTick 0).time.adjust = none ∧ oneTick ≤ (locked oneTick 0).time.acc
    ∧ (locked (-oneTick) 0).time.acc ≤ -oneTick
    ∧ (locked 0 49152).time.lastBeacon + 3 * 16384 ≤ now (locked 0 49152)
    ∧ discipline (set (locked 0 2097152) [(od 0x2400 2, 3)]) = dsHoldover
    ∧ (locked 0 2097152).time.holdoverAt + 128 * 16384 ≤ now (locked 0 2097152) := by decide +kernel

/-- A bale with a header, and a serving link with an unacknowledged copy and an overdue replay. -/
def bale (h : Nat) : BitVec 1280 := makeBale h []
def late : Link := { Link.reset with copies := [(1, bale (1 * 2 ^ 93))], replays := [⟨1, 0, 0⟩] }

theorem witness_LinksGoDown :
    linkUp (linked 2 late 4096) 0 = true ∧ linkUp (linked 3 late 4096) 0 = true ∧ linkUp (linked 6 late 4096) 0 = true
    ∧ getLink (linked 2 late 4096) 0 = late ∧ (∃ x ∈ late.copies, late.acked < x.1)
    ∧ late.lastAck + 4096 ≤ now (linked 2 late 4096)
    ∧ (∃ r ∈ late.replays, r.slotStart + 2 * linkLatency (linked 2 late 4096) 0 + 344 < now (linked 2 late 4096)) := by decide +kernel

/-- A training link in a step. -/
def inStep (n : Nat) : Link := { Link.reset with trainStep := n }
def helloOf (link : Nat) : BitVec 46 := BitVec.ofNat 46 (2 ^ 38 + 2 ^ 30 + 1 * 2 ^ 10 + link * 2 ^ 4)
def sevenEchoes : Link := { inStep 4 with echoes := List.replicate 7 160 }

theorem witness_LinkTraining :
    mayTrain (linked 0 Link.reset 0) 0 = true ∧ mayTrain (linked 4 Link.reset 0) 0 = true
    ∧ (∀ st ∈ [(1 : Nat), 5], training (linked st (inStep 2) 0) 0 = true) ∧ (31 : Nat) % 4 = 3
    ∧ cabling (linked 1 (inStep 3) 0) 0 = some (1, 0) ∧ bits (helloOf 0).toNat 9 4 = 0
    ∧ peerCoordinate (linked 1 (inStep 3) 0) 0 = some (bits (helloOf 0).toNat 29 10)
    ∧ bits (helloOf 0).toNat 37 30 ≤ min (bits (helloOf 0).toNat 45 38) (odGet (linked 1 (inStep 3) 0) (od 0x5300 1))
    ∧ odGet (linked 1 (inStep 3) 0) (od 0x5300 2) ≤ min (bits (helloOf 0).toNat 45 38) (odGet (linked 1 (inStep 3) 0) (od 0x5300 1))
    ∧ (0 : Nat) ≠ bits (helloOf 5).toNat 9 4 ∧ training (linked 1 sevenEchoes 0) 0 = true ∧ sevenEchoes.trainStep = 4
    ∧ sevenEchoes.echoes.length = 7 ∧ (420 - sevenEchoes.echoSent - 100) / 2 = 160
    ∧ (∀ x ∈ sevenEchoes.echoes, ∀ y ∈ 160 :: sevenEchoes.echoes, x ≤ y + 2 ∧ y ≤ x + 2)
    ∧ (inStep 6).trainStep ≠ 7 ∧ (inStep 7).trainStep = 7 ∧ attemptExpired (linked 1 Link.reset 10) 0 = false
    ∧ attemptExpired (linked 1 { inStep 2 with failures := [5] } 250000000) 0 = true ∧ (recentFailures (linked 1 { inStep 2 with failures := [5] } 250000000) { inStep 2 with failures := [5] }).length < 2
    ∧ attemptExpired (linked 1 { inStep 2 with failures := [5, 6] } 250000000) 0 = true
    ∧ 2 ≤ (recentFailures (linked 1 Link.reset 250000000) { inStep 2 with failures := [5, 6] }).length := by decide +kernel

def namedOnce : Link := { Link.reset with naks := [⟨5, 0, 1⟩], held := [bale (3 * 2 ^ 93)], downPosts := 2 }

theorem witness_LinkUpkeep :
    namedOnce.naks.find? (fun n => n.times < 2 && n.sent + replayDelay (linked 2 namedOnce 372) 0 ≤ now (linked 2 namedOnce 372))
      = some ⟨5, 0, 1⟩
    ∧ now (linked 2 namedOnce 67108867) % 67108864 < 4 ∧ linkState (linked 4 namedOnce 0) 0 = lsHeld
    ∧ linkState (linked 5 namedOnce 0) 0 = lsRetraining ∧ namedOnce.held.isEmpty = false
    ∧ namedOnce.held.all (fun b => hSrc (baleHeader b) = logicalAddress (set (linked 4 namedOnce 0) [(od 0x3A00 2, 0)])) = true
    ∧ linkState (linked 2 namedOnce 0) 0 = lsUp ∧ linkState (linked 3 namedOnce 0) 0 = lsReplaying
    ∧ linkUp (linked 2 namedOnce 0) 0 = true := by decide +kernel

/-- A bale of the idle class, as it arrives. -/
def idleBale : BitVec 1280 := bale 0
def oneDynamic : Link := { Link.reset with dynamic := [(2, bale (3 * 2 ^ 93))], downSlots := 64 }

theorem witness_SlotsAndBales :
    now (linked 2 { Link.reset with nextSlot := 9 } 35) / 4 < 9 ∧ isBeacon (now (linked 2 Link.reset 16384) / 4) = true
    ∧ (linked 2 oneDynamic 4).stage.phase = .none ∧ isBeacon (now (linked 2 oneDynamic 4) / 4) = false
    ∧ oneDynamic.nextSlot ≤ now (linked 2 oneDynamic 4) / 4 ∧ linkState (linked 2 oneDynamic 4) 0 = lsUp
    ∧ oneDynamic.dynamic = [(2, bale (3 * 2 ^ 93))] ∧ oneDynamic.restarting = false ∧ bitAt (baleHeader (bale (3 * 2 ^ 93))) 92 = false
    ∧ linkState (linked 4 oneDynamic 4) 0 = lsHeld ∧ 0 < oneDynamic.downSlots
    ∧ isBeacon (fullSeq (now (linked 2 Link.reset 4) / 4 + 8) 1) = false
    ∧ odGet (set (linked 2 Link.reset 4) [(od (linkIndex 0) 0x10, 15)]) (od (linkIndex 0) 0x10) < 16
    ∧ odGet (set (linked 2 Link.reset 4) [(od (linkIndex 0) 0x10, 16)]) (od (linkIndex 0) 0x10) = 16
    ∧ decodeBale idleBale false false = some (idleBale, false) ∧ hReplay (baleHeader idleBale) = false
    ∧ hClass (baleHeader idleBale) = 0 := by decide +kernel

/-- Two bales to device 1 outstanding, an acknowledgement due at 700. -/
def sentTwo (s : State) : State := setWindow s 1 { Window.reset with nextSeq := 2, unacked := 2, ackDue := some 700 }
def copying : State := { set (engineHolds { Engine.reset with dynamic := [⟨copyRequest 4, 0, 0, 0, 0, []⟩] }) [(od 0x4020 3, 16), (od 0x4020 2, 2)] with
  host := { State.reset.host with copyTo := some 1 } }

theorem witness_DynamicBales :
    2 ≤ (getWindow (sentTwo ready) 1).unacked
    ∧ (bits (1 * 2 ^ 32) 47 32 + 1 + 65536 - ((getWindow (sentTwo ready) 1).nextSeq.toNat + 65536 - (getWindow (sentTwo ready) 1).unacked % 65536) % 65536) % 65536 = 2
    ∧ (getWindow (sentTwo ready) 1).waiting = [] ∧ (sentTwo ready).host.copyTo = none
    ∧ (getWindow (sentTwo ready) 1).ackDue = some 700 ∧ now (inDomain .none 699 ready) < 700 ∧ 700 ≤ now (inDomain .none 700 ready)
    ∧ (0x330001 : Nat) / 65536 = fromEngine 0 ∧ (getEngine copying 0).dynamic = [⟨copyRequest 4, 0, 0, 0, 0, []⟩]
    ∧ (0x320001 : Nat) / 65536 = fromHost ∧ copying.host.copyTo = some 1
    ∧ pageRefused copying 0 0x20000010000 128 = false ∧ odGet copying (od (engineIndex 0) 2) = 1
    ∧ (0x10000000000 : Nat) % 128 = 0 ∧ inLpWindow copying 0x10000000000 128 = true
    ∧ touchesWaystations copying 0x10000000000 128 = false ∧ touchesGreen copying 0x10000000000 128 = false
    ∧ sealedAt copying 0x10000000000 128 = none
    ∧ now (inDomain .none 8 ready) < odGet (set ready [(od 0x3900 5, 9)]) (od 0x3900 5)
    ∧ odGet (set ready [(od 0x3900 5, 9)]) (od 0x3900 5) ≤ now (inDomain .none 9 ready) := by decide +kernel

/-- Sections of a leg image: kind, offset and length, and contents. -/
def leg (l : List (Nat × Nat × Nat)) : Leg := { Leg.reset with img := image l }

/-- A LOCKED device with a leg of variant 0 for its own address resident in slot 0. -/
def followed : State :=
  setLeg (set ready [(od 0x2400 2, 2), (od 0x2000 2, 1), (od 0x3A00 2, 0)]) 0 (leg [(7, 1, 1)])

/-- A start message of a number, for slot 0, with a start time. -/
def startOf (number startAt : Nat) : StartMsg := ⟨0, 0, 0, BitVec.ofNat 32 number, 0, 5, 0, BitVec.ofNat 64 startAt, 0, []⟩

/-- A prepared start of number 1 with children, a parent, and a deadline, at a time. -/
def prepared (children : List Nat) (parent : Option Nat) (time : Nat) : State :=
  let s := inDomain .none time followed
  { s with start := { s.start with msg := some (startOf 1 0), parent := parent, children := children, deadline := 100, discardAt := 500 } }

theorem followed_can : prepareStatus followed (startOf 1 0) = 0 := by
  have h : latencyAbove followed (getLeg followed (startOf 1 0).slot.val) = false := latencyAbove_none _ (by decide)
  simp only [prepareStatus, h]
  decide +kernel

theorem witness_StartRounds :
    (startOf 0 0).number.toNat ≤ odGet followed (od 0x4420 1) ∧ odGet followed (od 0x4420 1) < (startOf 1 0).number.toNat
    ∧ logicalAddress followed < 2 ^ 20 ∧ prepareStatus ready (startOf 1 0) ≠ 0
    ∧ (prepared [1, 2] none 0).start.msg = some (startOf 1 0) ∧ (prepared [1, 2] none 0).start.deadline ≠ 0
    ∧ 1 ∈ (prepared [1, 2] none 0).start.children ∧ (prepared [1, 2] none 0).start.answered = []
    ∧ (prepared [1, 2] none 0).start.answered.length + 1 < (prepared [1, 2] none 0).start.children.length
    ∧ (prepared [] none 0).start.ownStatus = 0 ∧ deviceState (prepared [] none 0) ≠ stFaulted
    ∧ deviceState (set (prepared [] none 0) [(od 0x1001 1, 7)]) = stFaulted ∧ now (prepared [] none 0) < (startOf 1 1).startAt.toNat
    ∧ (startOf 1 0).startAt.toNat ≤ now (prepared [] none 0) ∧ (prepared [] none 100).start.deadline ≤ now (prepared [] none 100)
    ∧ (mergedStatus (prepared [] none 100)).1 = 0 ∧ now (prepared [] none 100) < 2 ^ 63
    ∧ (mergedStatus (prepared [1] none 100)).1 ≠ 0 ∧ (prepared [] (some 1) 100).start.parent ≠ none
    ∧ (prepared [] none 500).start.discardAt ≤ now (prepared [] none 500)
    ∧ now (prepared [] none 499) < (prepared [] none 499).start.discardAt := by decide +kernel

/-- The same device with start number 1 written, and one whose rails are on and whose shape is given. -/
def starting : State := set followed [(od 0x5870 1, 1)]
def shaped : State := { inDomain .none 0 ready with boot := { ready.boot with stepsDone := [.rails] } }

theorem starting_can : prepareStatus starting (startMessage starting 0) = 0 := by
  have h : latencyAbove starting (getLeg starting (startMessage starting 0).slot.val) = false := latencyAbove_none _ (by decide)
  simp only [prepareStatus, h]
  decide +kernel

theorem witness_StartsStopsAndShape :
    Accepted ready ring (od 0x5870 6) [1] false 0 ∧ odGet ready (od 0x5870 1) ≤ odGet ready (od 0x4420 1)
    ∧ Accepted starting ring (od 0x5870 6) [1] false 0 ∧ odGet starting (od 0x4420 1) < odGet starting (od 0x5870 1)
    ∧ odGet starting (od 0x5870 2) = 0 ∧ usedAxes starting = []
    ∧ now starting < 2 ^ 63 ∧ (∀ v ∈ [(0 : Byte), 1], Accepted ready ring (od 0x5800 5) [v] false 0)
    ∧ Accepted ready ring (od 0x3A00 6) [0] false 0
    ∧ Accepted (ownWrite ready ring (od 0x3A00 6) [0] false) ring (od 0x3A00 7) [] true 0
    ∧ isShape (od 0x3A00 4) = true ∧ Accepted shaped ring (od 0x3A00 4) (leBytes (3 + 2 * 32 + 1024) 4) false 0
    ∧ linksBegun shaped = true ∧ odGet shaped (od 0x3A00 4) ≠ 3 + 2 * 32 + 1024
    ∧ Accepted ready ring (od 0x3A00 7) [] true 0 ∧ isShape (od 0x3A00 2) = false := by
  unfold Accepted; decide +kernel

/-- A device in a stage with intake point 3 of waystation `ws` at offset 4, at most 2 records; its reply core has no green region. -/
def intakeOf (ws kind : Nat) (first : Bool) : State :=
  let dark := { workingCore with regions := workingCore.regions.filter fun e => (readRegion e.2).mode ≠ .green }
  let s := setLeg (set (inDomain .stage 4 (staged dark)) [(od (wsIndex ws) 1, kind)]) 0
    (leg [(256, 2, 0xD), (264, 8, 0x10000), (272, 8, 512), (0x10000, 8, 3 * 256 + ws * 2 ^ 16 + 2 * 2 ^ 24 + 4 * 2 ^ 32)])
  { s with stage := { s.stage with firstRun := first }, host := { s.host with intake := if first then [] else [⟨3, ws, 0, [], 0⟩] } }

theorem witness_IntakeAndLog : ∀ x ∈ [(1, 1, true), (40, 2, true), ((47 : Nat), (2 : Nat), false)],
    ((runningLeg (intakeOf x.1 x.2.1 x.2.2)).intakePoints (intakeOf x.1 x.2.1 x.2.2).stage.index).find? (fun p => p.number = 3)
      = some ⟨0, 3, 4, x.1, 2, 0, 0, 0⟩
    ∧ (intakeOf x.1 x.2.1 x.2.2).stage.phase = .stage ∧ (intakeOf x.1 x.2.1 x.2.2).stage.firstRun = x.2.2
    ∧ (intakeOf x.1 x.2.1 x.2.2).stage.start + 4 ≤ now (intakeOf x.1 x.2.1 x.2.2)
    ∧ (intakeOf x.1 x.2.1 x.2.2).host.served.contains 3 = false ∧ wsKind (intakeOf x.1 x.2.1 x.2.2) x.1 = x.2.1
    ∧ odGet (intakeOf x.1 x.2.1 x.2.2) (od 0x5850 1) = 0
    ∧ (coreOf (intakeOf x.1 x.2.1 x.2.2) 0).regions.all (fun e => (readRegion e.2).mode ≠ .green) = true
    ∧ (x.2.2 = false → ((intakeOf x.1 x.2.1 x.2.2).host.intake.find? (fun r => r.point = 3)).isSome)
    ∧ (x.2.1 = 1 → ∀ copies ∈ [([] : List Nat), [9, 3]],
      let s := set (intakeOf x.1 x.2.1 x.2.2) [(od (wsIndex x.1) 2, 5)]
      odGet s (od (wsIndex x.1) 3) ≠ releasable { s with host := { s.host with copying := Table.put [] [] x.1 copies.tail } } x.1 5) := by
  decide +kernel

/-- The host port in CXL mode, decoder 1 over LPDDR5X, a green page at its start, a sealed range at 0x10000100000, and a bad line. -/
def attached : State :=
  let s := setCargo (set ready [(od 0x5800 1, 1), (od 0x4020 2, 2), (od 0x4020 3, 16), (od 0x5890 1, 0x10000000000), (od 0x5890 2, 0x800000)]) 0
    { CargoEntry.reset with state := 1, manifest := leBytes (0x10000100000 + 2 ^ 64) 16 }
  { s with ext := { s.ext with green := [⟨0x10000000000, 1, 0x10000001000⟩], bad := [(0x400000000 + 0x8000, 1)] } }

theorem witness_HostAccesses :
    windowReachable .decoder1 ready = false ∧ windowReachable .decoder1 attached = true ∧ attached.boot.runningFirmware = true
    ∧ hostTarget attached .decoder1 0x40 8 = some 0x10000000040 ∧ touchesGreen attached 0x10000000040 8 = true
    ∧ hostTarget attached .decoder1 0x100038 8 = some 0x10000100038 ∧ 0x10000100038 % 64 + 8 ≤ 64
    ∧ touchesGreen attached 0x10000100038 8 = false ∧ (sealedAt attached 0x10000100038 8).isSome
    ∧ hostTarget attached .decoder1 0x300000 8 = some 0x10000300000 ∧ touchesGreen attached 0x10000300000 8 = false
    ∧ sealedAt attached 0x10000300000 8 = none ∧ hostTarget attached .decoder1 0x7FFFF9 8 = none
    ∧ firstBad attached 0x10000300000 8 = none ∧ hostTarget attached .decoder1 0x200000 8 = some 0x10000200000
    ∧ firstBad attached 0x10000200000 8 = some 0x10000200000 ∧ State.reset.boot.runningFirmware = false
    ∧ attachMode attached ≠ 0 ∧ 0x3F8 + 8 ≤ 0x400 := by decide +kernel

def inWindow1ms (windowEnd time : Nat) : State :=
  { inDomain .none time ready with host := { ready.host with windowEnd := [(4, windowEnd)], more := [(4, true)] } }

theorem witness_HostPort :
    attachMode ready ≠ 0 ∧ ({ ready with pins := { ready.pins with perstN := true } } : State).pins.perstN = true
    ∧ bitAt (odGet ready (od 0x2420 1)) 2 = true ∧ ready.pins.perstN = false
    ∧ Table.look (inWindow1ms 9 9).host.windowEnd 0 4 ≠ 0 ∧ Table.look (inWindow1ms 9 9).host.windowEnd 0 4 ≤ now (inWindow1ms 9 9)
    ∧ Table.look (inWindow1ms 9 9).host.more false 4 = true ∧ attachMode (inWindow1ms 9 9) ≠ 0
    ∧ now (inWindow1ms 9 8) < Table.look (inWindow1ms 9 8).host.windowEnd 0 4 := by decide +kernel

/-- An image of no bytes to load, and of 256; a copy of no bytes and of 128 to device 1, whose window is full. -/
def loads (bytes : Nat) : State := set ready [(od 0x5860 1, 1), (od 0x5860 3, bytes)]
def copies (bytes : Nat) : State :=
  setWindow (set (inDomain .none 0 ready) [(od 0x4020 2, 2), (od 0x4020 3, 16), (od 0x5880 1, 0x10000000000), (od 0x5880 2, bytes), (od 0x5880 3, 1),
    (od 0x5880 4, 0x10000000000)]) 1 (if bytes = 0 then Window.reset else { Window.reset with unacked := 64 })

theorem witness_LegsAndCopies :
    (∀ n ∈ [(0 : Nat), 64], Accepted (loads n) ring (od 0x5860 4) [1] false 0 ∧ (runs (loads n) && runningSlot (loads n) = 1) = false
      ∧ startPrepared (loads n) = false ∧ (readImage (loads n) 0 n).isSome ∧ firstBad (loads n) 0 n = none)
    ∧ Accepted (loads 0) ring (od 0x5860 4) [2] false 0 ∧ slotReferenced (loads 0) 1 = false
    ∧ ({ ready with host := { ready.host with loading := some (7, Leg.reset) } } : State).host.loading = some (7, Leg.reset)
    ∧ ready.host.loading = none ∧ Accepted (copies 0) ring (od 0x5880 5) [1] false 0 ∧ odGet (copies 0) (od 0x5880 2) = 0
    ∧ windowIdle (copies 0) 1 = true ∧ Accepted (copies 128) ring (od 0x5880 5) [1] false 0
    ∧ firstBad (copies 128) (odGet (copies 128) (od 0x5880 1)) 128 = none
    ∧ (getWindow (copies 128) 1).limit ≤ (getWindow (copies 128) 1).unacked := by
  unfold Accepted; decide +kernel

/-- A device in BOOT whose PLLs are locked. -/
def booting : State := set State.reset [(od 0x2420 1, 15)]

/-- A snapshot of 1,500 bytes. -/
def snapshot (id : Nat) : Snapshot := ⟨ring, 9, id, List.replicate 1500 1, 0⟩

theorem witness_DictionaryReads :
    serverAlive State.reset ring.path = false ∧ serverAlive ready ring.path = true ∧ objRow (od 0 1) = none
    ∧ (objRow (od 0x2000 1)).isSome ∧ objServed booting (od 0x2000 1) = false ∧ serverAlive booting ring.path = true
    ∧ (objRow (od 0x1001 1)).map (·.type.long) = some false ∧ objServed ready (od 0x1001 1) = true
    ∧ (objRow (od 0x1100 9)).map (·.type.long) = some true ∧ objServed ready (od 0x1100 9) = true
    ∧ (snapshot 9).requester = ring ∧ now ready ≤ (snapshot 9).last + segmentGap ∧ 1024 * 1 < (snapshot 9).bytes.length
    ∧ odGet ready (od 0x1100 3) ≠ 0 ∧ attachMode (set ready [(od 0x5800 1, 0)]) = 0 ∧ attachMode ready ≠ 0
    ∧ serverAlive ready .bar2 = true ∧ (objRow (8 * od 0x1001 1 / 8)).isSome ∧ 8 * od 0x1001 1 < 0x8C0000 := by decide +kernel

/-- An open segmented write of one byte to the name of the device. -/
def opened : State := { ready with dict := { ready.dict with segment := some ⟨ring, 9, od 0x1100 9, 1, [0x61], 0⟩ } }

theorem witness_DictionaryWrites :
    (∀ x ∈ [(od 0x4400 2, 8), (od 0x4400 1, 1), (od 0x1100 0x14, 1)], PlainScalar x.1 ∧ Accepted ready ring x.1 (leBytes 1 x.2) false 0)
    ∧ PlainBytes (od 0x1100 9) ∧ ready.dict.segment = none ∧ [0x61, (0x62 : Byte)].length ≤ longLimit (od 0x1100 9)
    ∧ Accepted ready ring (od 0x1100 9) [0x61, 0x62] true 0
    ∧ PlainBytes (od 0x5100 1) ∧ (zeroBytes 1024).length ≤ longLimit (od 0x5100 1) ∧ longObject (od 0x5100 1) = true
    ∧ accessStatus ready (od 0x5100 1) = 0 ∧ serverAlive ready ring.path = true
    ∧ now opened ≤ 0 + segmentGap ∧ Accepted opened ring (od 0x1100 9) ([0x61] ++ [0x62]) true 0
    ∧ Accepted ready ring (od 0x2000 0x10) (leBytes 0 4) false 0 ∧ Accepted ready ring (od 0x2000 0x17) (leBytes 0xF0 4) false 0
    ∧ Accepted ready ring (od 0x5100 1) [] true 0 ∧ Accepted ready ring (od 0x5100 0x10) (List.replicate 32 1) true 0
    ∧ (∀ i ∈ [(0 : Nat), 0x900, 0x9DF], Accepted ready ring (counterPlace i).config (leBytes 0x18000000 4) false 0)
    ∧ attachMode ready ≠ 0 ∧ serverAlive ready .bar2 = true ∧ 0x8D0000 ≤ 8 * od 0x4400 2
    ∧ (objRow (od 0x4400 2)).map (fun r => (r.type.long, r.type.bytes, upperForm r (leNat (leBytes 1 8)))) = some (false, 8, true)
    ∧ Accepted ready (bar2Requester 3) (od 0x4400 2) ((leBytes 1 8).take 8) false 0 := by
  unfold Accepted PlainScalar PlainBytes; decide +kernel

theorem witness_RefusedWrites :
    ownWriteOf (.startCommand ring 5) = some (ring, od 0x5870 6, [5], false) ∧ serverAlive State.reset ring.path = false
    ∧ Accepted ready ring (od 0x5870 6) [5] false 5 ∧ Accepted ready ring (od 0x1001 1) [0] false 3
    ∧ Accepted ready ring (od 0 1) [] false 2 ∧ Accepted (set ready [(od 0x4C00 1, 1), (od 0x4C00 7, 1)]) ring (od 0x4C00 6) [7] false 5
    ∧ Accepted booting ring (od 0x5200 0x14) [1] false 0x0D := by
  unfold Accepted; decide +kernel

theorem witness_PostTimedWrites :
    (∀ x ∈ [(od 0x3000 4, (1 : Byte)), (od 0x311F 4, 1), (od 0x2020 5, 1), (od 0x2028 5, 1), (od 0x2017 7, 0), (od 0x2410 1, 4),
        (od (linkIndex 47) 0x20, 1), (od (linkIndex 0) 0x21, 1)], Accepted (staged workingCore) ring x.1 [x.2] false 1)
    ∧ odGet (set (staged workingCore) [(od 0x2028 5, 1)]) (od 0x2028 5) = 1 ∧ Accepted ready ring (od 0x2410 1) [4] false 0
    ∧ Accepted ready ring (od 0x2010 7) [0] false 0 ∧ Accepted (set ready [(od 0x2010 6, 1)]) ring (od 0x2010 7) [1] false 0
    ∧ Accepted (linked 2 Link.reset 0) ring (od (linkIndex 0) 0x20) [1] false 0 ∧ linkState (linked 2 Link.reset 0) 0 = lsUp
    ∧ Accepted (linked 2 Link.reset 0) ring (od (linkIndex 0) 0x21) [1] false 0
    ∧ linkState (linked 2 Link.reset 0) 0 ≠ lsOff ∧ linkState (linked 2 Link.reset 0) 0 ≠ lsTraining
    ∧ linkState (linked 2 Link.reset 0) 0 ≠ lsRetired := by
  unfold Accepted; decide +kernel

/-- A GDP PDU without data, and the frame that carries it to a station; every PDU is of the read of OD 1001.01. -/
def pdu (op flags hop : Byte) (tail : Bytes) : Bytes := [1, op, hop, flags] ++ beBytes 9 4 ++ beBytes (od 0x1001 1) 3 ++ zeroBytes 5 ++ tail
def frame (dest station : Nat) (p : Bytes) : Bytes := beBytes dest 6 ++ beBytes station 6 ++ beBytes (odGet ready (od 0x1100 2)) 2 ++ p
def ownMac : Nat := odGet ready (od 0x1100 1)
def other : Nat := 0x112233445566

/-- Both ring ports are linked, and the window to device 1 is full; a request of a station waits for the reply of device 1. -/
def gateway : State :=
  let s := setWindow (set ready [(od 0x1100 4, 1)]) 1 { Window.reset with unacked := 64 }
  { s with dict := { s.dict with tunnels := [⟨1, 9, od 0x1001 1, 0, 1, some (false, 0x112233445566), [], 0, 0⟩] } }

theorem witness_FramesTaken :
    ringAlive State.reset = false ∧ ringAlive gateway = true ∧ odGet gateway (od 0x1100 3) ≠ 0 ∧ odGet gateway (od 0x1100 4) ≠ 0
    ∧ 14 ≤ (frame ownMac other (pdu 1 0 1 [])).length ∧ beNat (slice (frame ownMac other (pdu 1 0 1 [])) 12 2) ≠ 0x8100
    ∧ beNat (slice (frame ownMac other (pdu 1 0 1 [])) 12 2) = odGet gateway (od 0x1100 2)
    ∧ beNat (slice (frame ownMac other (pdu 1 0 1 [])) 0 6) = odGet gateway (od 0x1100 1)
    ∧ beNat (slice (frame ownMac ownMac []) 6 6) = odGet gateway (od 0x1100 1) ∧ other ≠ ownMac
    ∧ readGdp ((frame ownMac other [1, 2]).drop 14) false = none ∧ other + 1 ≠ ownMac ∧ other + 1 ≠ 2 ^ 48 - 1
    ∧ (∀ hop ∈ [(1 : Byte), 2], readGdp ((frame (other + 1) other (pdu 1 0 hop [])).drop 14) false = some ⟨1, 1, hop.toNat, false, false, 9, od 0x1001 1, 0, 0, 0, []⟩)
    ∧ (requestCommand ring ⟨1, 1, 1, false, false, 9, od 0x1001 1, 0, 0, 0, []⟩).isSome
    ∧ readGdp ((frame ownMac other (pdu 1 1 1 (beBytes 1 4))).drop 14) false = some ⟨1, 1, 1, true, false, 9, od 0x1001 1, 0, 0, 1, []⟩
    ∧ requestOp 1 = true ∧ serverAlive gateway ring.path = true ∧ deviceState gateway ≠ stBoot ∧ logicalAddress gateway < 2 ^ 20
    ∧ 2 ^ 20 ≤ logicalAddress (set ready [(od 0x3A00 2, 0xFFFFFFFF)])
    ∧ (getWindow gateway 1).limit ≤ (getWindow gateway 1).unacked ∧ readGdp [1] true = none
    ∧ serverAlive gateway .fabric = true ∧ replyOp 1 = false ∧ replyOp 2 = true
    ∧ (readGdp (pdu 1 1 1 []) true).map (·.tunnel) = some true ∧ readGdp (pdu 2 0 1 []) true = some ⟨1, 2, 1, false, false, 9, od 0x1001 1, 0, 0, 0, []⟩
    ∧ (gateway.dict.tunnels.find? (fun x => x.target = 1 && x.transaction.toNat = 9 && x.op + 1 = 2)).map (·.back)
        = some (some (false, 0x112233445566)) := by decide +kernel

/-- The transfer window holds bytes and names an object. -/
def window (id : Nat) (b : Bytes) : State :=
  let s := setWindow (set ready [(od 0x1170 1, id), (od 0x1170 2, b.length), (od 0x1170 6, 1)]) 1 { Window.reset with unacked := 64 }
  { s with dict := { s.dict with window := Memory.write [] 0 0 b } }
def waitsFor (back : Option (Bool × BitVec 48)) : State :=
  { inDomain .none 12500000 ready with dict := { ready.dict with tunnels := [⟨1, 9, od 0x1001 1, 0, 1, back, [], 0, 0⟩] } }

/-- The path that the first overdue tunnel of transaction 9 would answer. -/
def overdueBack (s : State) : Option (Option (Bool × BitVec 48)) :=
  (s.dict.tunnels.find? fun x => x.transaction = 9 && decide (x.sent + 12500000 ≤ now s)).map (·.back)

theorem witness_TimeoutsAndWindow :
    overdueBack (waitsFor none) = some none
    ∧ overdueBack (waitsFor (some (false, 0x112233445566))) = some (some (false, 0x112233445566))
    ∧ now (inDomain .none 12499999 ready) < 0 + 12500000 ∧ odGet (waitsFor none) (od 0x1100 3) ≠ 0
    ∧ (∀ v ∈ [(1 : Byte), 2, 3], Accepted (window (od 0x1001 1) []) (bar2Requester 3) (od 0x1170 3) [v] false 0) := by
  unfold Accepted; decide +kernel

theorem witness_TimeoutsAndWindow_commands :
    objRow (odGet (window 1 []) (od 0x1170 1)) = none ∧ (objRow (od 0x1001 1)).isSome ∧ od 0x1001 1 / 256 < 0x1200
    ∧ (objectBytes (window (od 0x1001 1) []) ⟨0x1001, 1, 1, 1, .u8, .ro, 0, 0, 255, 1⟩ (od 0x1001 1)).length < 2 ^ 32
    ∧ odGet (window (od 0x4400 2) (leBytes 1 8)) (od 0x1170 1) = od 0x4400 2 ∧ longObject (od 0x4400 2) = false
    ∧ Memory.read (window (od 0x4400 2) (leBytes 1 8)).dict.window 0 0 8 = leBytes 1 8
    ∧ writeStatus (window (od 0x4400 2) (leBytes 1 8)) (od 0x4400 2) (leBytes 1 8) false none = 0 ∧ PlainScalar (od 0x4400 2)
    ∧ writeStatus (window (od 0x1001 1) [1]) (od 0x1001 1) [1] false none = 3 ∧ PlainScalar (od 0x1001 1)
    ∧ odGet (window 1 (pdu 1 0 1 [])) (od 0x1170 2) = 16 + beNat (slice (Memory.read (window 1 (pdu 1 0 1 [])).dict.window 0 0 16) 12 2)
    ∧ field (Memory.read (window 1 (pdu 1 0 1 [])).dict.window 0 0 16) 3 1 % 2 = 0
    ∧ requestOp (field (Memory.read (window 1 (pdu 1 0 1 [])).dict.window 0 0 16) 1 1) = true
    ∧ (getWindow (window 1 []) (odGet (window 1 []) (od 0x1170 6) % 2 ^ 20)).limit
        ≤ (getWindow (window 1 []) (odGet (window 1 []) (od 0x1170 6) % 2 ^ 20)).unacked := by
  unfold PlainScalar; decide +kernel

/-- A trusted publisher's key in entry 2, and a staged cargo of one page at 0: a header with a root, a manifest and a leaf. -/
def key : Bytes := List.replicate 32 1
def keyHash : Bytes := beBytes 51926631141244304554856714406504622666169793080802686582865282173978856011667 32

theorem keyHash_is : sha256 key = keyHash := by decide +kernel

def leaf : Bytes := List.replicate 32 2
def cargoHeader (root : Bytes) : Bytes :=
  leBytes 0x41433947 4 ++ [1, 0, 0, 0] ++ keyHash ++ zeroBytes 12 ++ leBytes 1 4 ++ leBytes 1 8 ++ leBytes 1 2 ++ zeroBytes 6 ++ root ++ zeroBytes 152
/-- Bytes that differ from d, as cells from an address on. -/
def cells (d : Byte) : Nat → Bytes → Memory
  | _, [] => []
  | a, x :: r => if x = d then cells d (a + 1) r else (a, x) :: cells d (a + 1) r

def stagedCells (root : Bytes) : Memory :=
  cells 0 0 (cargoHeader root) ++ cells 0 (2 * 2 ^ 40) (leBytes (0x10000 + 2 ^ 64) 16) ++ cells 0 (6 * 2 ^ 40) leaf
def stagedCargo (root : Bytes) : State :=
  let s := odSetBytes (set ready [(od 0x5120 5, 1), (od 0x5120 6, 0x200000)]) (od 0x5100 3) key
  { s with ext := { s.ext with cells := stagedCells root } }
def oneEntry : State := setCargo (stagedCargo leaf) 0
  { CargoEntry.reset with state := 1, base := 0x10000, pages := 1, manifest := leBytes (0x10000 + 2 ^ 64) 16, leaves := [leaf], root := leaf }

theorem witness_CargoCommands_open : ∀ root ∈ [leaf, key],
    Accepted (stagedCargo root) ring (od 0x5120 2) [1] false 0
    ∧ (readCargoHeader (readExt (stagedCargo root) 0 256)).ok = true
    ∧ (readCargoHeader (readExt (stagedCargo root) 0 256)).pages = 1
    ∧ (readCargoHeader (readExt (stagedCargo root) 0 256)).root = root
    ∧ mappedRange (stagedCargo root) 0 (24576 + 32 * 1) = true
    ∧ firstBad (stagedCargo root) 0 (24576 + 32 * 1) = none
    ∧ segments 1 (readExt (stagedCargo root) 0x2000 16) = [(0x10000, 1)]
    ∧ readExt (stagedCargo root) 0x6000 32 = leaf ∧ merkleRoot 25 [leaf] = leaf ∧ key ≠ leaf
    ∧ publisherOf (stagedCargo root) keyHash = some 2 ∧ publisherOf ready keyHash = none
    ∧ segmentAllowed (stagedCargo root) [(0x10000, 1)] 0 = true
    ∧ (getCargo (stagedCargo root) 0).live = false := by
  unfold Accepted; decide +kernel

theorem witness_CargoCommands :
    mappedRange (set ready [(od 0x5120 1, 2 ^ 47)]) (2 ^ 47) 24576 = false ∧ Accepted (set ready [(od 0x5120 1, 2 ^ 47)]) ring (od 0x5120 2) [1] false 0
    ∧ (∀ v ∈ [(2 : Byte), 3, 5], Accepted oneEntry ring (od 0x5120 2) [v] false 0 ∧ Accepted ready ring (od 0x5120 2) [v] false 0)
    ∧ (getCargo oneEntry (odGet oneEntry (od 0x5120 3))).live = true ∧ odGet oneEntry (od 0x5120 5) = 1
    ∧ odGet oneEntry (od 0x5120 4) + 1 ≤ (getCargo oneEntry 0).pages ∧ mappedRange oneEntry 0x200000 65536 = true
    ∧ firstBad oneEntry 0x200000 65536 = none ∧ pageAddress (getCargo oneEntry 0).segments 0 = 0x10000
    ∧ mappedRange oneEntry 0x10000 65536 = true ∧ firstBad oneEntry 0x10000 65536 = none ∧ (getCargo ready 0).live = false
    ∧ baseReferenced (set oneEntry [(od 0x2000 2, 1), (od 0x2010 0x10, 0x10000)]) (getCargo oneEntry 0).base = true
    ∧ baseReferenced oneEntry (getCargo oneEntry 0).base = false ∧ ready.cargo.running = none := by
  unfold Accepted; decide +kernel

/-- Commands run: three cargo ends, a firmware end, an attestation end. -/
def ends (r : CargoRun) : State :=
  { oneEntry with cargo := { oneEntry.cargo with running := some r, firmware := some 0x0D, attesting := some [1] } }

theorem witness_CargoCommands_end : ∀ r ∈ [(⟨0, 63, some (63, CargoEntry.reset), [], none⟩ : CargoRun), ⟨0, 0, none, [], some 0⟩,
    ⟨0, 0, none, [(0, 0, true)], none⟩, ⟨6, 0, none, [(0, 0, false)], none⟩],
    (ends r).cargo.running = some r ∧ (getCargo (ends r) 0).live = true := by decide +kernel

/-- Flash with a header in slot A of a signer key and a security version, and with a boot control block in trial. -/
def signer : Bytes := List.replicate 48 3
def signerHash : Bytes := beBytes 26487890485670508305700914808778051317765516151360941587331521609274288835164 32

theorem signerHash_is : sha256 signer = signerHash := by decide +kernel

def imageHeader (version : Nat) : Bytes :=
  leBytes 0x01463947 4 ++ [1, BitVec.ofNat 8 version] ++ zeroBytes 14 ++ signer ++ zeroBytes 444
def flashed (version floor : Nat) (rootHash : Bytes) : State :=
  { ready with
    flash := Memory.write [] 0xFF 0x100000 (imageHeader version)
    fuses := { ready.fuses with rootKeyHash := rootHash, floor := BitVec.ofNat 8 floor }
    cargo := { ready.cargo with verifiedSince := true } }

theorem slotHeader_written (s : State) (h : Bytes) (hl : h.length = 512) :
    slotHeader { s with flash := Memory.write [] 0xFF 0x100000 h } 0 = h := by
  have r := Memory.read_write_same 0xFF [] 0x100000 h
  rw [hl] at r
  exact r

theorem flashed_header (version floor : Nat) (rootHash : Bytes) :
    slotHeader (flashed version floor rootHash) 0 = imageHeader version :=
  slotHeader_written { ready with
      fuses := { ready.fuses with rootKeyHash := rootHash, floor := BitVec.ofNat 8 floor }
      cargo := { ready.cargo with verifiedSince := true } } _ (by
    simp only [imageHeader, signer, zeroBytes, List.length_append, leBytes_length, List.length_replicate, List.length_cons, List.length_nil])

theorem witness_FirmwareAndAttestation :
    Accepted ready ring (od 0x5200 0x11) [1] true 0 ∧ Accepted ready ring (od 0x5200 0x11) (zeroBytes 512) true 0
    ∧ (∀ v ∈ [(1 : Byte), 2, 4, 5, 6], Accepted ready ring (od 0x5200 0x14) [v] false 0)
    ∧ Accepted { ready with cargo := { ready.cargo with verifiedSince := true } } ring (od 0x5200 0x14) [3] false 0
    ∧ odGet ready (od 0x5200 0x13) = 0 ∧ mappedRange (set ready [(od 0x5200 0x13, 64)]) 0 64 = true
    ∧ firstBad (set ready [(od 0x5200 0x13, 64)]) 0 64 = none ∧ (bootBlock ready).count + 1 < 2 ^ 32
    ∧ odGet (set ready [(od 0x5200 7, 1)]) (od 0x5200 7) = 1 ∧ ready.cargo.firmware = none ∧ ready.cargo.attesting = none
    ∧ headerValid (slotHeader ready 0) = false ∧ headerValid (imageHeader 1) = true ∧ slice (imageHeader 1) 20 48 = signer
    ∧ signerHash ≠ (flashed 1 0 key).fuses.rootKeyHash ∧ signerHash = (flashed 1 2 signerHash).fuses.rootKeyHash
    ∧ field (imageHeader 1) 5 1 < (flashed 1 2 signerHash).fuses.floor.toNat
    ∧ (flashed 1 1 signerHash).fuses.floor.toNat ≤ field (imageHeader 1) 5 1
    ∧ Accepted ready ring (od 0x5010 1) (zeroBytes 32) true 0 := by
  unfold Accepted; decide +kernel

def calibrating (done : List CalStep) : State :=
  { set ready [(od 0x1001 1, stCalibrating), (od 0x3400 2, 1), (od 0x3417 2, 1)] with boot := { ready.boot with stepsDone := done } }
def tried : State := writeBootBlock State.reset 0 true

theorem witness_ResetsAndCalibration :
    odGet State.reset (od 0x2420 1) = 0 ∧ deviceState State.reset = stBoot
    ∧ deviceState (set State.reset [(od 0x1001 1, 0)]) = stOff ∧ stepReady (calibrating [.rails, .dieToDie]) .rowRegulators = true
    ∧ State.reset.boot.runningFirmware = false
    ∧ (bootBlock State.reset).trial = false ∧ odGet tried (od 0x2420 1) = 0 ∧ deviceState tried = stBoot
    ∧ (bootBlock tried).trial = true ∧ (bootBlock tried).count + 1 < 2 ^ 32 ∧ deviceState ready ≠ stCalibrating
    ∧ deviceState (calibrating []) = stCalibrating ∧ stepReady (calibrating []) .rails = true
    ∧ stepReady (calibrating [.rowRegulators]) .coreTest = true ∧ odGet (calibrating []) (od (0x3400 + 311 / 13) 2) ≠ 0
    ∧ (310 : Nat) % 13 ≠ 12 ∧ stepReady (calibrating [.rails, .dieToDie]) (.hbmStack 15) = true
    ∧ odGet (calibrating []) (od 0x400F 2) ≠ 2 ∧ .coreTest ∉ (calibrating [.rowRegulators]).boot.stepsDone := by decide +kernel

/-- Die d is held in reset; a plan die's core 5 is retired. -/
def held (d : Nat) : State := { set ready [(od 0x2420 1, 15 - 2 ^ d)] with boot := { ready.boot with dieReset := [(d, 1)] } }

theorem witness_DiesAndSteward :
    (∀ d ∈ [(0 : Nat), 1, 2, 3], bitAt (odGet (held d) (od 0x2420 1)) d = false ∧ bitAt (odGet ready (od 0x2420 1)) d = true
      ∧ bitAt (odGet (staged workingCore) (od 0x2420 1)) d = true
      ∧ Table.look ready.boot.dieReset 0 d = 0 ∧ Table.look (held d).boot.dieReset 0 d ≠ 0)
    ∧ ((⟨1, [12, 3, 23]⟩ : DieReady).failed.map (·.val)).filter (fun row => row / 12 = 1) = [12, 23]
    ∧ ((⟨1, [3]⟩ : DieReady).failed.map (·.val)).filter (fun row => row / 12 = 1) = []
    ∧ runs (staged workingCore) = true ∧ runs ready = false ∧ linkUp (set ready [(od 0x3818 1, 2)]) 24 = true
    ∧ State.reset.boot.runningFirmware = false ∧ ready.boot.runningFirmware = true ∧ deviceState ready ≠ stBoot
    ∧ deviceState ready ≠ stFaulted ∧ bitAt (odGet ready (od 0x2420 1)) 2 = true ∧ odGet ready (od 0x1100 5) = 0
    ∧ bitAt (odGet State.reset (od 0x2420 1)) 2 = false ∧ odGet (set ready [(od 0x1100 5, 2)]) (od 0x1100 5) = 2 := by decide +kernel

/-- A device in READY with its bus owned and converters present, a reading, and polls of a converter that has failed. -/
def converters : State := set ready [(od 0x2800 9, 1), (od 0x2810 1, 1), (od 0x2811 1, 1), (od 0x281F 1, 1)]
def reading1 (answered : Bool) (status : BitVec 16) : PollReading := ⟨answered, 800, 5, 40, status⟩
def nine : State := { converters with power := { converters.power with pollFailures := [(15, 9)] } }
def samples (a b : Int) : State := set ready [(od 0x2801 1, wrap 32 a), (od (regionPower 30) 5, wrap 32 b)]

theorem witness_ConvertersAndHeat :
    odGet (set ready [(od 0x2800 9, 0)]) (od 0x2800 9) = 0 ∧ odGet ready (od (converterIndex 0) 1) = 0
    ∧ odGet converters (od (converterIndex 15) 1) ≠ 0 ∧ odGet converters (od 0x2800 9) ≠ 0
    ∧ faultStatus 0x80 = false ∧ faultStatus 0x100 = true ∧ faultStatus (odGet converters (od (converterIndex 15) 6)) = false
    ∧ Table.look nine.power.pollFailures 0 15 = 9 ∧ Table.look converters.power.pollFailures 0 15 ≠ 9
    ∧ (countFrom 0 16).filter (fun k => converterBus k = false && odGet ready (od (converterIndex k) 1) = 1) = []
    ∧ (countFrom 0 16).filter (fun k => converterBus k = false && odGet converters (od (converterIndex k) 1) = 1) = [0, 1]
    ∧ (countFrom 0 16).filter (fun k => converterBus k = true && odGet converters (od (converterIndex k) 1) = 1) = [15]
    ∧ stewardRuns converters = true ∧ stewardRuns (held 2) = false
    ∧ powered State.reset = false ∧ powered ready = true ∧ (getRow ready 23).tripped = false ∧ rowStep ready 23 < 4
    ∧ ready.stage.phase ≠ .verdict ∧ ready.power.hold = false
    ∧ 4 ≤ rowStep (set ready [(od (regionClock (rowRegion 23)) 1, 4)]) 23 ∧ runs (staged workingCore) = true
    ∧ odInt (samples 100 99) (od 0x2801 1) ≤ 100 ∧ odInt (samples 100 99) (od (regionPower 30) 5) < odInt (samples 100 99) (od 0x2801 1) := by
  decide +kernel

/-- The throttle stands at step 3 for 100 ms of a cool device; an average just above the limit; regulators in a state. -/
def cool (t time : Nat) : State :=
  (countFrom 0 31).foldl (fun s r => odSetInt s (od (regionPower r) 5) 20) (odSetInt (set (inDomain .none time ready) [(od 0x2410 5, t)]) (od 0x2801 2) 80)
def limited (mw : Nat) : State := { set ready [(od 0x2800 2, 1)] with power := { ready.power with averages := List.replicate 1220 mw } }
def regulator (st : Nat) : State := set ready [(od (regionPower 0) 4, st), (od (regionPower 0) 1, 800)]

theorem witness_PowerSteps :
    powered State.reset = false ∧ powered ready = true ∧ stewardRuns (limited 1000) = true ∧ stewardRuns (held 2) = false
    ∧ (let s := set (setRow (armed [] []) 7 { getRow ready 7 with carry := true }) [(od 0x2410 2, 2)]
      (getRow s 7).carry = true ∧ min 4 (deviceStep s + 1) ≠ rowStep s 7 ∧ (getRow s 8).carry = false ∧ deviceStep s ≠ rowStep s 8)
    ∧ odGet (limited 1000) (od 0x2800 2) * 1000 * 1221 < (1001 :: (limited 1000).power.averages).foldl (· + ·) 0
    ∧ (limited 1000).power.averages.foldl (· + ·) 0 ≤ odGet (limited 1000) (od 0x2800 2) * 1000 * 1221
    ∧ (1000 :: (limited 1000).power.averages).foldl (· + ·) 0 ≤ odGet (limited 1000) (od 0x2800 2) * 1000 * 1221
    ∧ runs (cool 255 125000000) = false ∧ powered (cool 255 125000000) = true ∧ odGet (cool 255 125000000) (od 0x2410 5) = 255
    ∧ (cool 1 125000000).power.restoreBase + 125000000 ≤ now (cool 1 125000000) ∧ allCool (cool 1 125000000) = true
    ∧ now (cool 1 124999999) < (cool 1 124999999).power.restoreBase + 125000000 ∧ odGet (regulator 1) (od (regionPower 0) 4) ≠ 2
    ∧ odGet (regulator 2) (od (regionPower 0) 4) = 2 ∧ rowStep (regulator 2) (regionRow 0) = deviceStep (regulator 2)
    ∧ (getRow (regulator 2) (regionRow 0)).stopped = false ∧ monitorServes (regulator 2) 0 0 = true ∧ odGet (regulator 1) (od (regionPower 0) 4) = 1
    ∧ ready.stage.phase ≠ .verdict ∧ ready.stage.phase ≠ .armed ∧ (armed [] []).stage.phase = .armed
    ∧ (armed [] []).stage.nextStart ≤ now (armed [] []) + 256 ∧ deviceStep (armed [] []) < 5
    ∧ now (inDomain .armed 0 ready) + 256 < ({ ready.stage with nextStart := 257 } : StageCtl).nextStart
    ∧ odGet (regulator 2) (od (regionPower 0) 4) ≠ 3 ∧ runs ready = false ∧ runs (staged workingCore) = true
    ∧ isRowRegion 0 = true ∧ isRowRegion 12 = false := by decide +kernel

/-- Counter 0 about to overflow with an action; a sample buffer; an armed tally. -/
def counting (action : Nat) (value : Nat) : State :=
  set ready [((counterPlace 0).config, 2 ^ 31 + action * 2 ^ 29), ((counterPlace 0).value, value)]
def buffered (n : Nat) : State :=
  { ready with observe := { ready.observe with samples := (List.replicate n (leBytes 1 32)) ++ [leBytes 7 32], overflowMore := true, overflowEnd := 5 } }
def tallied : State := { ready with observe := { ready.observe with armed := some ⟨1, 9, 0, 0, 2, 0, none⟩ } }

theorem witness_Observation :
    (∀ a ∈ [(0 : Nat), 1, 2], cfgEnable (odGet (counting a (2 ^ 48 - 255)) (counterPlace 0).config) = true
      ∧ cfgAction (odGet (counting a (2 ^ 48 - 255)) (counterPlace 0).config) = a ∧ odGet (counting a (2 ^ 48 - 255)) (od 0x4800 3) = 0
      ∧ 2 ^ 48 ≤ odGet (counting a (2 ^ 48 - 255)) (counterPlace 0).value + 255
      ∧ odGet (counting a (2 ^ 48 - 255)) (counterPlace 0).reload < 2 ^ 48)
    ∧ ¬ 2 ^ 48 ≤ odGet (counting 0 (2 ^ 48 - 256)) (counterPlace 0).value + 255
    ∧ (buffered 2046).observe.samples.length < 2048 ∧ 2048 ≤ (buffered 2047).observe.samples.length
    ∧ (buffered 1).observe.overflowMore = true ∧ now (inDomain .none 4 (buffered 1)) < (buffered 1).observe.overflowEnd
    ∧ (buffered 1).observe.overflowEnd ≤ now (inDomain .none 5 (buffered 1)) ∧ attachMode ready ≠ 0 ∧ ready.observe.overflowMore = false
    ∧ (buffered 1).observe.samples = [leBytes 1 32] ++ leBytes 7 32 :: [] ∧ field (leBytes 7 32) 0 4 = 7 ∧ field (leBytes 1 32) 0 4 ≠ 7
    ∧ (∀ v ∈ [(7 : Nat), 9], Accepted (buffered 1) ring (od 0x4800 9) (leBytes v 4) false 0)
    ∧ Accepted ready ring (od 0x4C00 6) [2] false 0 ∧ Accepted (set ready [(od 0x4C00 1, 1), (od 0x4C00 2, 4096)]) ring (od 0x4C00 6) [1] false 0
    ∧ ready.observe.armed = none ∧ tallied.observe.armed = some ⟨1, 9, 0, 0, 2, 0, none⟩ ∧ now (inDomain .none 8 ready) < 9
    ∧ 9 ≤ now (inDomain .none 9 ready) := by
  unfold Accepted; decide +kernel

/-- A route clock with an adjustment at 5, at a time; and a core's row that runs. -/
def ticking (skip holding : Bool) (time : Nat) : State :=
  { ready with time := { ready.time with counter := BitVec.ofNat 64 time, adjust := some (5, skip), holding := holding } }

theorem witness_IdleTick :
    (ticking true false 4).pending = [] ∧ odGet State.reset (od 0x2420 1) = 0 ∧ odGet (ticking true false 4) (od 0x2420 1) ≠ 0
    ∧ now (ticking true false 4) < 5 ∧ now (ticking false true 5) = 5 ∧ ready.time.adjust = none
    ∧ (getRow ready 23).stopped = false ∧ dieRuns ready (23 / 12) = true ∧ (getRow ready 23).low = 0
    ∧ (getRow (setRow ready 23 { getRow ready 23 with low := 16 }) 23).low ≠ 0 := by decide +kernel

/-! Further clauses of the statements above. -/

/-- A core whose V[2], V[3] and V[4] hold a value in lane 0. -/
def laned (a b c : Nat) : Core := { workingCore with regs := { workingCore.regs with
  v := [(2, BitVec.ofNat 4096 a), (3, BitVec.ofNat 4096 b), (4, BitVec.ofNat 4096 c)] } }

/-- The value of lane 0 of a register. -/
def laneValue (f : FloatFmt) (w r : Nat) (c : Core) : Option Rat := f.value (laneAt w 0 (c.v r)).toNat

theorem witness_VectorResults_sums :
    (∀ x ∈ [(FloatFmt.fp64, 64, 0x3FF0000000000000, 0x4000000000000000), (.fp32, 32, 0x3F800000, 0x40000000), (.bf16, 16, 0x3F80, 0x4000),
        (.fp16, 16, 0x3C00, 0x4000)],
      laneValue x.1 x.2.1 2 (laned x.2.2.1 x.2.2.2 0) = some 1 ∧ laneValue x.1 x.2.1 3 (laned x.2.2.1 x.2.2.2 0) = some 2
      ∧ laneValue x.1 x.2.1 4 (laned x.2.2.1 x.2.2.2 0) = some 0 ∧ -x.1.top ≤ 1 - 2 ∧ (1 * 2 + 0 : Rat) ≤ x.1.top ∧ (1 + 2 : Rat) ≤ x.1.top)
    ∧ (1 : Rat) < 2 ∧ FloatFmt.fp32.read (laneAt 32 0 ((laned 0x7FC00000 0 0).v 2)).toNat = .nan
    ∧ laneValue .fp32 32 2 (laned 0x80000000 0 0) = some 0 ∧ laneValue .fp32 32 3 (laned 0x80000000 0 0) = some 0 := by decide +kernel

theorem witness_VectorResults_special :
    laneValue .fp32 32 2 (laned 0xBF800000 0 0) = some (-1) ∧ laneValue .fp32 32 2 (laned 0x40800000 0 0) = some 4
    ∧ (4 : Rat) = (2 : Rat) ^ (2 * 1 : Int) ∧ (4 : Rat) ≠ 0 ∧ -FloatFmt.fp32.top ≤ 1 / 4 ∧ (1 / 4 : Rat) ≤ FloatFmt.fp32.top
    ∧ FloatFmt.fp32.read (laneAt 32 0 ((laned 0x7FC00000 0 0).v 2)).toNat = .nan
    ∧ (laneAt 32 0 ((laned 0xFF800000 0 0).v 2)).toNat = 0xFF800000 := by decide +kernel

theorem witness_VectorResults_convert :
    (FloatFmt.fp32.read 0x40200000).rat = some (5 / 2) ∧ 2 * ratDist (5 / 2) (2 : Int) = 1 ∧ (2 : Int) % 2 = 0
    ∧ 2 * ratDist (9 / 4) (2 : Int) < 1 ∧ (FloatFmt.fp32.read 0x40100000).rat = some (9 / 4)
    ∧ FloatFmt.fp32.read 0x7FC00000 = .nan ∧ codeFloat 0xD = none ∧ codeFloat 1 = some .bf16 ∧ (9 / 4 : Rat) ≤ FloatFmt.bf16.top
    ∧ -FloatFmt.bf16.top ≤ 9 / 4 ∧ 4096 ≤ codeBits (typeCode 0) * 64 ∧ codeBits 1 * 64 < 4096 := by decide +kernel

/-- The core with line 0x10000 of its green region written. -/
def greenCore : Core := { workingCore with written := [(0x400, true)] }

theorem witness_StoreResults_green :
    Issues (staged greenCore) 0 (.t (.stx 3 0 0x2000)) ∧ (preIssue (staged greenCore) 0).inShadow = false
    ∧ ((preIssue (staged greenCore) 0).regionAt 0x10000 8).map (fun r => (r.mode, r.base, r.base + r.size, r.back, r.home))
        = some (.green, 0x10000, 0x11000, 0x20000, 0)
    ∧ ((preIssue (staged greenCore) 0).agAddress 0 : Int) + 0x2000 * 8 = 0x10000 ∧ 0x10000 % 64 + 8 ≤ 64
    ∧ (preIssue (staged greenCore) 0).mayTransfer (scratchBank ((preIssue (staged greenCore) 0).writtenCopy 0x10000)) portMirror = true
    ∧ (preIssue (staged greenCore) 0).mirrors = [] ∧ greenAt (freshCycle (staged greenCore) 0) 0 = none
    ∧ (preIssue (staged { greenCore with outerFree := [(scratchBank 0x20000, 9)] }) 0).mayTransfer
        (scratchBank ((preIssue (staged { greenCore with outerFree := [(scratchBank 0x20000, 9)] }) 0).writtenCopy 0x10000)) portMirror = false :=
  ⟨issues_of_check (by decide +kernel), by decide +kernel⟩

theorem witness_MatrixIssue_products :
    Issues (staged workingCore) 0 (.m (.mma false true 0xA 0xA 64 0 0)) ∧ Issues (staged workingCore) 0 (.m (.mma false false 3 3 64 0 0))
    ∧ codeInteger 0xA = true ∧ codeInteger 3 = false ∧ (elementValue 3 127 0).rat = some 0 ∧ FloatFmt.fp32.value 0 = some 0
    ∧ -FloatFmt.fp32.top ≤ 0 ∧ (0 : Rat) ≤ FloatFmt.fp32.top :=
  ⟨issues_of_check (by decide +kernel), issues_of_check (by decide +kernel), by decide +kernel⟩

/-- A drain in a mode at a row, and a core that has it. -/
def drainOf (mode row : Nat) : DrainOp :=
  ⟨false, mode, 1, false, 0, 32, if mode = 0 then 3 else 0, 0, 0, row, [], false, [(row, some (zeroBytes 3072))], 0⟩
def draining (mode row : Nat) : State := staged { workingCore with drains := [drainOf mode row], cycle := 400 }

theorem witness_CoreEvents :
    (coreOf (staged { workingCore with mops := [product (some 0), product none], cycle := 200 }) 0).mops = [product (some 0)] ++ product none :: []
    ∧ (product (some 0)).enter ≠ none ∧ (product none).enter = none ∧ 0 + (product (some 0)).cycles + 8 ≤ 200
    ∧ (∀ mode ∈ [(0 : Nat), 1, 2, 3, 4], ∀ row ∈ [(0 : Nat), 63], (coreOf (draining mode row) 0).drains = [] ++ drainOf mode row :: []
      ∧ (drainOf mode row).issued + (drainOf mode row).row * rowCycles mode + 4 ≤ (coreOf (draining mode row) 0).cycle)
    ∧ isB0 (draining 0 0) = false
    ∧ ((coreOf (draining 1 63) 0).regionAt (63 * 512) 512).map (·.mode) = some .plain
    ∧ ((coreOf (draining 3 0) 0).regionAt 0 3072).map (·.mode) = some .plain ∧ (zeroBytes 3072).length = 3072
    ∧ ((drainOf 2 0).rowBytes (envOf (draining 2 0) 0) 0).length = 256 ∧ codeFloat 1 = some .bf16
    ∧ FloatFmt.fp32.value 0 = some 0 ∧ -FloatFmt.bf16.top ≤ 0 ∧ (0 : Rat) ≤ FloatFmt.bf16.top
    ∧ (0 : Int) ≤ -((drainOf 4 0).window + 32 * (odGet (draining 4 0) (od 0x2040 1) : Int)) ∧ 0 * 2 ^ 0 < 2 ^ 159 := by decide +kernel

/-- The inbound walk over a line whose codeword is bad; the outbound walk with headers of an outbound waystation, the context region or a
green page at its line. -/
def badLine : State := { staged (walking (walk 0 0)) with ext := { (staged (walking (walk 0 0))).ext with bad := [(0x100, 1)] } }
def outbound (l : List (Nat × Nat)) (b : Nat) : State :=
  set (staged { walking (walk 32 0) with scratch := [(0x30000 + 58, BitVec.ofNat 8 b)], written := [(0xC00, true)] }) l
/-- The walk that reads the first slot header of waystation 32. -/
def headerWalk : DepotOp := { walk 32 0 with descriptor := BitVec.ofNat 256 (oneLine.toNat + (0x280000 - 256) * 2 ^ 196) }
def atGreen (pages : List Nat) : State :=
  { outbound [] 0 with ext := { (outbound [] 0).ext with green := [⟨0x4000, 1, 0x8000⟩], touched := [(4, pages)] } }

theorem witness_DepotWalks_more :
    depotReaches (staged (walking (walk 0 0))) 0 (walk 0 0) = true ∧ depotReaches (outbound [] 0) 0 (walk 32 0) = true
    ∧ ((coreOf (outbound [] 0) 0).regionAt 0x30000 64).isSome = true
    ∧ lineBad badLine 0x4000 ≠ 0 ∧ (locate badLine (readFrame badLine 0x4000)).isSome ∧ (coreOf badLine 0).haltTaken = false
    ∧ sendsRecords (outbound [(od (0x5820 + 32) 1, 2)] 0) headerWalk = some 32 ∧ headerWalk.desc = 32 ∧ depotReaches (outbound [] 0) 0 headerWalk = true
    ∧ (outbound [] 0).host.records.length < 1024
    ∧ (∀ b ∈ [(0 : Nat), 2], sendsRecords (outbound [(od 0x2000 2, 1), (od 0x2008 1, 0x4000)] b) (walk 32 0) = none
      ∧ contextOf (outbound [(od 0x2000 2, 1), (od 0x2008 1, 0x4000)] b) 0x4000 = some 0)
    ∧ (readEntry ((coreOf (outbound [] 2) 0).readScratch 0x30000 64)).itin = 1 ∧ runningSlot (outbound [] 2) = 0
    ∧ (readEntry ((coreOf (outbound [] 0) 0).readScratch 0x30000 64)) = (readEntry (zeroBytes 64))
    ∧ (readEntry (firedEntry (outbound [(od 0x2000 2, 1), (od 0x2008 1, 0x4000)] 0) 0)).kind = 0
    ∧ (∀ l ∈ [[], [4], (List.range 4096).map (· + 5)], contextOf (atGreen l) 0x4000 = none ∧ greenAt (atGreen l) 0x4000 = some ⟨0x4000, 1, 0x8000⟩
      ∧ ((locate (atGreen l) 0x4000).map (·.iface)) = some 4) ∧ firstBad (atGreen []) 0x4000 4096 = none
    ∧ 0x4000 / 4096 ∉ (List.range 4096).map (· + 5) ∧ ((List.range 4096).map (· + 5)).length = 4096 := by decide +kernel

theorem witness_MemoryUpkeep_more :
    scrubberReads (set reading [(od 0x4004 2, 1)]) 4 = true ∧ scrubberReads reading 4 = false
    ∧ memoryRuns reading 4 = true ∧ memoryRuns { reading with boot := { reading.boot with dieReset := [(0, 1)] } } 4 = false
    ∧ odGet (engineHolds Engine.reset) (od (engineIndex 0) 2) = 1 ∧ odGet (set (engineHolds Engine.reset) [(od (engineIndex 0) 2, 2)]) (od (engineIndex 0) 2) ≠ 1
    ∧ memoryRuns (engineHolds Engine.reset) 0 = true := by decide +kernel

/-- An even pattern is the nearest one to its own value. -/
theorem nearest_self {f : FloatFmt} {q : Rat} {v : Nat} (h : f.value v = some q) (even : v % 2 = 0) : Nearest f q v := by
  refine ⟨q, h, fun _ p _ _ => ?_⟩
  unfold ratDist
  grind

/-- An attention request of one BF16 query row of 16 elements over the token of one page at 0x20000010000, whose table stands at
0x20000000000. -/
def attentionRequest (length : Nat) : Bytes :=
  leBytes (2 ^ 120 + 2 * 2 ^ 108 + 5 * 2 ^ 98 + 0xC00 * 2 ^ 72 + 7 * 2 ^ 32 + 0x20000000000 * 2 ^ 464 + 2 ^ 416 + 2 ^ 412 + 2 ^ 408
    + 0x3F800000 * 2 ^ 352 + 0x3F800000 * 2 ^ 320) 64 ++ leBytes length 64 ++ zeroBytes 64
def attending (length : Nat) : State :=
  extWrite (engineHolds { Engine.reset with held := [⟨none, attentionRequest length, 0⟩] }) 0x20000000000
    (leBytes (2 ^ 63 + 0x2000001 * 2 ^ 16) 8)

theorem witness_GlazeReplies_attention : ∀ length ∈ [(0 : Nat), 1],
    let s := attending length
    let h := readGlazeHeader (attentionRequest length)
    let p := readAttention h.params
    plansServed s = true ∧ memoryRuns s 0 = true ∧ replyMayPass s h.core h.reply = true ∧ h.op = 1
    ∧ h.wellFormed (attentionRequest length) = true ∧ p.valid h.body = true ∧ (p.te - 1) / 16 = p.tb / 16 ∧ p.rows = 1 ∧ p.hd = 16
    ∧ firstBad s p.pt 8 = none ∧ bitAt (leNat (readExt s p.pt 8)) 63 = true
    ∧ bits (leNat (readExt s p.pt 8)) 47 16 * 65536 = 0x20000010000 ∧ inLocal s 0 0x20000010000 65536 = true
    ∧ firstBad s 0x20000010000 65536 = none
    ∧ ((List.range 16).filter fun c => p.tb ≤ c && c < p.te && c < field (glazeBody (attentionRequest length)) 0 4) = List.range length
    ∧ p.sk.rat = some 1 ∧ p.sv = .fin false 8388608 (-23)
    ∧ (∀ i ∈ List.range 16, (elementValue p.qf 127 (field ((glazeBody (attentionRequest length)).drop 64) (2 * i) 2)).rat = some 0)
    ∧ (∀ half ∈ [(0 : Nat), 1], ∀ i ∈ List.range 16,
        (elementValue p.kvf 127 (field (readExt s (0x20000010000 + 32768 * half) (p.hd * p.es)) (2 * i) 2)).rat = some 0) := by
  decide +kernel

/-- The values of the token's row: every rounding is exact, and the weight is 1. -/
theorem witness_GlazeReplies_roundings :
    Nearest .fp32 0 0 ∧ FloatFmt.fp32.value 0 = some 0 ∧ FloatFmt.fp32.holds 0 ∧ FloatFmt.fp32.holds (0 * 1)
    ∧ (exp32 (FloatFmt.fp32.read 0)).rat = some 1 ∧ FloatFmt.fp32.holds 1 :=
  ⟨nearest_self (by decide +kernel) rfl, by decide +kernel, by unfold FloatFmt.holds; decide +kernel,
    by unfold FloatFmt.holds; decide +kernel, by decide +kernel, by unfold FloatFmt.holds; decide +kernel⟩

/-- A gather of one row of one block with its scale, in a source format. -/
def gatherRequest (sf : Nat) : Bytes :=
  leBytes (2 * 2 ^ 120 + 2 ^ 108 + 5 * 2 ^ 98 + 0xC00 * 2 ^ 72 + 7 * 2 ^ 32 + 0x20000000000 * 2 ^ 464 + 0x20000001000 * 2 ^ 416
    + sf * 2 ^ 412 + 2 ^ 392 + 2 ^ 376 + 2 ^ 360) 64 ++ zeroBytes 64
def gathering (sf scale : Nat) : State :=
  extWrite (engineHolds { Engine.reset with held := [⟨none, gatherRequest sf, 0⟩] }) 0x20000001000 (leBytes scale 4)

theorem witness_GlazeReplies_gather : ∀ x ∈ [((0xA : Nat), (0x3F800000 : Nat)), (5, 127), (5, 255)],
    let s := gathering x.1 x.2
    let h := readGlazeHeader (gatherRequest x.1)
    let p := readGather h.params
    plansServed s = true ∧ memoryRuns s 0 = true ∧ replyMayPass s h.core h.reply = true ∧ h.op = 2
    ∧ h.wellFormed (gatherRequest x.1) = true ∧ p.valid h.body = true ∧ p.n = 1
    ∧ inLocal s 0 p.src p.rowBytes = true ∧ inLocal s 0 p.scl (p.scaleSize * p.blocks) = true
    ∧ firstBad s p.src p.rowBytes = none ∧ firstBad s p.scl (p.scaleSize * p.blocks) = none
    ∧ codeMx x.1 = (x.1 ≠ 0xA : Bool) ∧ codeFloat p.tf = some .fp32
    ∧ field (readExt s p.scl (p.scaleSize * p.blocks)) 0 p.scaleSize = x.2
    ∧ (x.1 = 0xA → FloatFmt.fp32.value x.2 = some 1) ∧ (x.2 = 127 → (elementValue 5 127 0).rat = some 0) := by decide +kernel

theorem witness_GlazeReplies_reduce :
    let h := readGlazeHeader reduceRequest
    let p := readReduce h.params
    h.wellFormed reduceRequest = true ∧ p.valid h.body = true ∧ p.k = 0 ∧ p.bodyv = true ∧ p.out = 0 ∧ p.e = 1 ∧ p.st ≠ 1
    ∧ memoryRuns reducing 0 = true ∧ replyMayPass reducing h.core h.reply = true ∧ p.b + 32 * odGet reducing (od 0x2040 1) = 0
    ∧ FloatFmt.fp32.value (field (glazeBody reduceRequest) 0 4) = some (1 * (2 : Rat) ^ (0 : Int)) ∧ ((1 : Int)).natAbs < 2 ^ 159
    ∧ (∀ out ∈ [(1 : Nat), 2, 3, 4], (readReduce (h.params + out * 2 ^ 421)).out = out
        ∧ (readReduce (h.params + out * 2 ^ 421)).valid h.body = true)
    ∧ ∀ f ∈ [FloatFmt.fp64, .fp32, .bf16, .fp16], -f.top ≤ 1 * (2 : Rat) ^ (0 : Int) ∧ 1 * (2 : Rat) ^ (0 : Int) ≤ f.top := by
  decide +kernel

/-- The vote round of `overdue` in its last phase, and the vote of the peer at coordinate 32 in it. -/
def lastPhase : State := { overdue with vote := { overdue.vote with phase := 1 } }
def lastVote : Bytes := leBytes 0 8 ++ leBytes 0xFFFFFFFFFFFFFFFF 8 ++ [0x10] ++ zeroBytes 111

/-- `voting` with a strike to be decided. -/
def struck : State := { voting with strikes := [(65536, { getStrikes voting 65536 with sites := [7] })] }

theorem witness_VotesFormAndArrive_last :
    lastPhase.stage.phase = .voted ∧ runs lastPhase = true ∧ lastPhase.boot.runningFirmware = true ∧ stewardRuns lastPhase = true
    ∧ lastPhase.vote.own = some noVote ∧ (usedAxes lastPhase)[1]? = some 1 ∧ (usedAxes lastPhase)[2]? = none
    ∧ (readVote lastVote).relayed = false ∧ (readVote lastVote).phase = 1
    ∧ peerOnAxis lastPhase 1 ((peerCoordinate lastPhase 16).getD (physicalOf lastPhase 0)) = some 1 ∧ linePeers lastPhase 1 = [1]
    ∧ receivedVote lastPhase 1 1 = none ∧ (readVote lastVote).number = lastPhase.vote.number
    ∧ (readVote lastVote).prevNumber = lastPhase.vote.prevNumber ∧ (readVote lastVote).prevFoul = lastPhase.vote.prevFoul
    ∧ voteDeadline lastPhase 1 ≤ now lastPhase ∧ struck.power.survey = false ∧ (struck.strikes.map (·.1)).Nodup
    ∧ struck.strikes.map (fun e => (e.1, e.2.sites)) = [(65536, [7])] ∧ usedAxes struck = [0, 1] ∧ struck.vote.t0 + 64 ≤ now struck := by
  decide +kernel

theorem witness_StageStarts_dies :
    dieMoves (armed [] []) 0 = true ∧ dieMoves (resetDie0 (armed [] [])) 0 = false ∧ startDue (resetDie0 (armed [] [])) = true
    ∧ (resetDie0 (armed [] [])).stage.reloading = [] := by decide +kernel

/-- The same device with port die 0 in reset. -/
def portReset (s : State) : State := { s with boot := { s.boot with dieReset := [(2, 1)] } }

theorem witness_LinkTraining_port :
    (∀ st ∈ [(1 : Nat), 2, 5], portRuns (linked st (inStep 2) 0) 0 = true ∧ portRuns (portReset (linked st (inStep 2) 0)) 0 = false)
    ∧ (∀ st ∈ [(1 : Nat), 5], training (linked st (inStep 3) 0) 0 = true ∧ cabling (linked st (inStep 3) 0) 0 = some (1, 0))
    ∧ portRuns (linked 1 (inStep 7) 0) 0 = true ∧ odGet (linked 2 namedOnce 0) (od 0x3A00 4) ≠ 0
    ∧ odGet (set (linked 2 namedOnce 0) [(od 0x3A00 4, 0)]) (od 0x3A00 4) = 0 ∧ oneDynamic.again = []
    ∧ portRuns (linked 2 oneDynamic 4) 0 = true ∧ linkState (linked 5 namedOnce 0) 0 = lsRetraining := by decide +kernel

/-- A plan request is held at the engine, so that a copy's bale waits; and a routing table of an earlier epoch. -/
def bothCopies : State := { copying with host := { copying.host with copyTag := 0x320001 } }
def heldBack : State := set (engineHolds { Engine.reset with held := [⟨none, reduceRequest, 0⟩] }) [(od 0x4020 3, 16), (od 0x4020 2, 2)]

theorem witness_DynamicBales_waits :
    (0x320001 : Nat) = bothCopies.host.copyTag ∧ bothCopies.host.copyTo = some 1 ∧ (0x320002 : Nat) ≠ bothCopies.host.copyTag
    ∧ (0x320002 : Nat) / 65536 = fromHost ∧ isOwn bothCopies 1 = false
    ∧ accessWaits bothCopies bothCopies.ext.waiting (ifacesOf bothCopies 0x20000010000 128) = false
    ∧ accessWaits heldBack heldBack.ext.waiting (ifacesOf heldBack 0x20000010000 128) = true ∧ isOwn heldBack 1 = false
    ∧ accessWaits bothCopies bothCopies.ext.waiting (ifacesOf bothCopies 0x10000000000 128) = false
    ∧ pageRefused bothCopies 0 (65536 * (0x20000010000 / 65536)) 65536 = false
    ∧ pageRefused bothCopies 0 0 65536 = true ∧ accessWaits bothCopies bothCopies.ext.waiting (ifacesOf bothCopies 0 128) = false
    ∧ ({ ready with fabric := { ready.fabric with old := [(0, 0)] } } : State).fabric.old ≠ [] := by decide +kernel

/-- A prepared start with a message behind it that a later one has pushed aside. -/
def keeping (time : Nat) : State :=
  { prepared [] none time with start := { (prepared [] none time).start with
      msg := some (startOf 2 0), ownStatus := 1, kept := some ⟨startOf 1 0, [], 400⟩ } }

theorem witness_StartRounds_kept :
    (keeping 0).start.kept = some ⟨startOf 1 0, [], 400⟩ ∧ (startOf 1 0).number = (startOf 1 9).number
    ∧ (startOf 2 0).number ≠ (startOf 1 9).number ∧ deviceState (keeping 0) ≠ stFaulted ∧ now (keeping 0) < (startOf 1 9).startAt.toNat
    ∧ deviceState (set (keeping 0) [(od 0x1001 1, stStopped)]) = stStopped ∧ 400 ≤ now (keeping 400) ∧ now (keeping 399) < 400
    ∧ (prepared [] none 0).start.ownStatus = 0 ∧ prepareStatus (prepared [] none 0) { startOf 2 0 with slot := 1 } ≠ 0
    ∧ odGet (prepared [] none 0) (od 0x4420 1) < (startOf 2 0).number.toNat := by decide +kernel

/-- `attached` in a stage in which every LPDDR5X engine of port die 0 holds a plan request. -/
def busyHost : State :=
  let s := inDomain .stage 0 (set attached [(od 0x1001 1, 4)])
  [16, 17, 18, 19].foldl (fun s g => setEngine s g { Engine.reset with held := [⟨none, reduceRequest, 0⟩] }) s

theorem witness_HostAccesses_waits :
    windowReachable .decoder1 busyHost = true ∧ hostTarget busyHost .decoder1 0x300000 8 = some 0x10000300000
    ∧ accessWaits busyHost busyHost.ext.waiting (ifacesOf busyHost 0x10000300000 8) = true
    ∧ (∀ a ∈ [(0x10000000040 : Nat), 0x10000100038, 0x10000300000, 0x10000200000, 0x10000001000],
        accessWaits attached attached.ext.waiting (ifacesOf attached a 8) = false)
    ∧ hostTarget attached .decoder1 0x1000 8 = some 0x10000001000 ∧ touchesBack attached 0x10000001000 8 = true
    ∧ touchesBack attached 0x10000300000 8 = false ∧ touchesBack attached 0x10000200000 8 = false := by decide +kernel

theorem witness_IntakeAndLog_ready : ∀ x ∈ [(1, 1, true), (40, 2, true), ((47 : Nat), (2 : Nat), false)],
    (intakeOf x.1 x.2.1 x.2.2).stage.unready = false := by decide +kernel

theorem witness_DictionaryReads_bar2 :
    attachMode ready ≠ 0 ∧ serverAlive ready .bar2 = true ∧ 8 < 0x8C0000 ∧ objRow (8 / 8) = none ∧ (3 : Nat) ≠ 4 ∧ (3 : Nat) ≠ 8
    ∧ 12 % 8 ≠ 0 ∧ serverAlive { ready with pins := { ready.pins with testEn := true } } .bar2 = false := by decide +kernel

theorem witness_FramesTaken_broadcast :
    (∀ hop ∈ [(1 : Byte), 2], readGdp ((frame (2 ^ 48 - 1) other (pdu 1 0 hop [])).drop 14) false
      = some ⟨1, 1, hop.toNat, false, false, 9, od 0x1001 1, 0, 0, 0, []⟩)
    ∧ beNat (slice (frame (2 ^ 48 - 1) other (pdu 1 0 1 [])) 0 6) = 2 ^ 48 - 1 ∧ odGet gateway (od 0x1100 1) ≠ 2 ^ 48 - 1
    ∧ beNat (slice (frame (2 ^ 48 - 1) other (pdu 1 0 1 [])) 12 2) = odGet gateway (od 0x1100 2)
    ∧ odGet gateway (od 0x1100 4) ≠ 0 ∧ odGet (set gateway [(od 0x1100 4, 0)]) (od 0x1100 4) = 0 := by decide +kernel

theorem witness_CargoCommands_lines : ∀ root ∈ [leaf, key],
    firstBad (stagedCargo root) 0 8112 = none ∧ firstBad (stagedCargo root) 8192 (16 * 1) = none
    ∧ firstBad (stagedCargo root) 24576 (32 * 1) = none ∧ mappedRange (stagedCargo root) 0 24576 = true := by decide +kernel

theorem witness_ResetsAndCalibration_rails :
    (calibrating []).boot.railsFrom ≤ now (calibrating []) ∧ .rails ∉ (calibrating []).boot.stepsDone
    ∧ stepReady { calibrating [] with boot := { (calibrating []).boot with railsFrom := 9 } } .rails = false
    ∧ (∃ k < 3, k ∈ [(2 : Nat)] ∨ 16 + k ∈ [2]) ∧ (∀ k < 3, ¬ (k ∈ [(25 : Nat), 26, 27, 4] ∨ 16 + k ∈ [25, 26, 27, 4]))
    ∧ [12, 13] ∈ railGroups ∧ (∀ k ∈ [(12 : Nat), 13], ¬ (k ∈ [(25 : Nat), 26, 27, 4] ∨ 16 + k ∈ [25, 26, 27, 4]))
    ∧ State.reset.boot.warm = false ∧ ({ State.reset with boot := { State.reset.boot with warm := true } } : State).boot.warm = true
    ∧ State.reset.vote.loss = false := by decide +kernel

theorem witness_DiesAndSteward_more :
    .rowRegulators ∈ ({ held 1 with boot := { (held 1).boot with stepsDone := [.rowRegulators] } } : State).boot.stepsDone ∧ runs (held 1) = false
    ∧ linkState (set ready [(od 0x3818 1, 1)]) 24 = lsTraining ∧ linkState (set ready [(od 0x3818 1, 5)]) 24 = lsRetraining
    ∧ deviceState (set ready [(od 0x1001 1, stFaulted)]) = stFaulted ∧ (set ready [(od 0x1001 1, stFaulted)]).escalations.length < 16
    ∧ deviceState (set ready [(od 0x1001 1, stBoot)]) = stBoot := by decide +kernel

theorem witness_ConvertersAndHeat_more :
    State.reset.boot.runningFirmware = false ∧ converters.boot.runningFirmware = true
    ∧ 99 < odInt (samples 100 99) (od 0x2801 1) ∧ odInt (samples 100 99) (od 0x2801 1) ≤ 100
    ∧ 30 ∉ (samples 100 99).power.hot
    ∧ 30 ∈ ({ samples 100 99 with power := { (samples 100 99).power with hot := [30] } } : State).power.hot
    ∧ (limited 1000).power.overPeak = false
    ∧ ({ limited 1000 with power := { (limited 1000).power with overPeak := true } } : State).power.overPeak = true := by decide +kernel

/-- An armed tally of mode 2, before its stage and in it. -/
def stageTally (due : Option Nat) : State :=
  { inDomain .none 9 ready with observe := { ready.observe with armed := some ⟨2, 0, 1, 4, 2, 0, due⟩ } }

theorem witness_Observation_stage :
    (stageTally none).observe.armed = some ⟨2, 0, 1, 4, 2, 0, none⟩ ∧ (stageTally (some 9)).observe.armed = some ⟨2, 0, 1, 4, 2, 0, some 9⟩
    ∧ 9 ≤ now (stageTally (some 9)) ∧ now (stageTally (some 10)) < 10 ∧ (ticking true false 4).ext.waiting = [] := by decide +kernel

theorem witness_FusesNeverFall : FusesKept State.reset.fuses State.reset ∧ (∃ t, step State.reset = .next t) :=
  ⟨⟨rfl, Nat.le_refl _⟩, _, rfl⟩

theorem witness_BuffersStayBounded : BuffersBounded State.reset ∧ (∃ t, step State.reset = .next t) :=
  ⟨⟨rfl, by decide, by decide, by decide⟩, _, rfl⟩

theorem witness_ColumnsAndReset : odGet (set ready [(od (0x3400 + 23) 1, 0)]) (od (0x3400 + 23) 1) ≤ 12 := by decide +kernel

/-! The checks of `WellFormed`: each refuses a command that no event of the spec can be. -/

theorem test_ill_formed_plan_requests :
    wellFormed (.glazeRequestArrive 0 .fabric (zeroBytes 65)) = false ∧ wellFormed (.glazeRequestArrive 0 .fabric []) = false
    ∧ wellFormed (.glazeRequestArrive 0 .fabric (zeroBytes 64)) = true := by decide +kernel

theorem test_ill_formed_bank_writes :
    targetWf (.bundle 65536 0) = false ∧ targetWf (.stageTable 65536 0) = false
    ∧ (∀ w t k, wellFormed (.bankWrite 0 w t k) = targetWf t)
    ∧ (∀ w v k, wellFormed (.descriptorWrite 0 w 256 v k) = false) :=
  ⟨by decide, by decide, fun _ _ _ => rfl, fun _ _ _ => rfl⟩

theorem test_ill_formed_messages :
    (∀ l n p, p.length ≠ 144 → wellFormed (.postVote l n p) = false)
    ∧ wellFormed (.prepare 0 { startOf 1 0 with axis := 4 }) = false ∧ wellFormed (.ack 0 { startOf 1 0 with status := 256 }) = false
    ∧ wellFormed (.go 0 { startOf 1 0 with notices := List.replicate 17 0 }) = false
    ∧ wellFormed (.abort 0 { startOf 1 0 with axis := 7 }) = false ∧ wellFormed (.go 0 (startOf 1 0)) = true :=
  ⟨fun _ _ _ h => by simp [wellFormed, h], by decide⟩

theorem test_ill_formed_lists :
    wellFormed (.substitution ring [1, 2, 3]) = false ∧ wellFormed (.substitution ring (zeroBytes 68)) = false
    ∧ (∀ p, wellFormed (.pmbusAlert p (List.replicate 17 ⟨true, 0, 0, 0, 0⟩)) = false) :=
  ⟨by decide, by decide +kernel, fun _ => rfl⟩

theorem test_ill_formed_host_accesses :
    (∀ r o, wellFormed (.bar2Access r o 2 (some [0])) = false ∧ wellFormed (.bar2Access r o 0 none) = false)
    ∧ accessWf 0 = false ∧ accessWf 4097 = false ∧ accessWf 4096 = true :=
  ⟨fun _ _ => ⟨rfl, rfl⟩, by decide⟩

/-- A value too long for its request: writes and segments, a DOMAIN of 64 KiB, a frame, a PDU through the fabric. -/
theorem test_ill_formed_long_values (v : Bytes) :
    (1024 < v.length → wellFormed (.write ring 0 0 0 v) = false ∧ ∀ l, wellFormed (.segmentWrite ring 0 0 0 0 l v) = false)
    ∧ (136 < v.length → ∀ src, wellFormed (.dictionaryFrame src v) = false)
    ∧ (1522 < v.length → ∀ p g, wellFormed (.frameReceive p v g) = false)
    ∧ (65536 < v.length → wellFormed (.shapeWrite ring 0 0 v) = false ∧ wellFormed (.attestationNonce ring v) = false
        ∧ wellFormed (.trustedPublisherWrite ring 0 v) = false ∧ wellFormed (.chunk ring v) = false) := by
  simp [wellFormed]

/-- The table gives no row any bits, so no word spells a command. -/
theorem test_no_word_is_a_command (nbits w : Nat) : decodeTableWord nbits w = none := rfl

/-! Worked examples of the spec. -/

/-- Chapter 2: logical core 207 is on row 17 (die 1, row 5), logical column 3; nothing skipped below, so with skip column 12 it is
physical column 3. -/
theorem test_core_207 : physOf State.reset 207 = 13 * 17 + 3 ∧ od 0x3400 1 + 17 * 256 = od 0x3411 1 := by decide

/-- R372: OD 2410.01 lies at BAR2 offset 0x0120_8008. -/
theorem test_bar2_offset : 8 * od 0x2410 1 = 0x01208008 := by decide

/-- Chapter 6: row 3 of the matrix at 0x0123_C700 lies on stack 4 at offset 0x24_7700, with no local share on P0. -/
theorem test_stack_of_an_address : (locate (set State.reset [(od 0x4010 1, 0)]) 0x0123C700).map (fun p => (p.iface, p.offset))
    = some (4, 0x247700) := by decide +kernel

/-- Chapter 6: the matrix walk as one descriptor moves 4,096 lines to 0x10_0000–0x13_FFFF; its highest external byte is
0x028B_137F. -/
theorem test_matrix_walk :
    let x := readDepot (BitVec.ofNat 256 (2 ^ 255 + 0x48D00 * 2 ^ 196 + 0x4000 * 2 ^ 179 + 2 * 2 ^ 168 + 2048 * 2 ^ 156 + 2 ^ 144
      + 2 ^ 132 + 180 * 2 ^ 106 + 2 * 2 ^ 36))
    x.spBounds = (0x100000, 0x13FFFF) ∧ (x.extBounds 0).2 = 0x28B137F ∧ x.lines = 4096 := by decide +kernel

/-- Table 2.12: an FP8 operation of k = 256 that enters at cycle 0 is complete at the end of cycle 263 on an A1 and 261 on a B0: its drain
issues at 264 and at 262. -/
theorem test_matrix_completes :
    let m : MatrixOp := ⟨false, false, 4, 4, 256, 0, 0, 0, 0, 0, some 0⟩
    m.cycles = 256 ∧ m.complete false 263 = false ∧ m.complete false 264 = true ∧ m.complete true 261 = false
    ∧ m.complete true 262 = true := by decide

/-- Table 5.3: line 0x4_1240 of a green region with its back copy 0x1_0000 above; the written line reads from the copy a store went
to. -/
theorem test_green_line :
    let r := readRegion (BitVec.ofNat 128 (2 ^ 127 + 2 ^ 125 + 16 * 2 ^ 113 + 4 * 2 ^ 102 * 16 + 0x50 * 2 ^ 91))
    let c (selector written : Bool) : Core := { Core.reset with
      selector := Table.put [] false 0x1049 selector, written := Table.put [] false 0x1049 written }
    (c false false).readAddress { r with base := 0x40000, back := 0x50000, mode := .green } 0x1049 = 0x41240
    ∧ (c false true).readAddress { r with base := 0x40000, back := 0x50000, mode := .green } 0x1049 = 0x51240
    ∧ (c true true).readAddress { r with base := 0x40000, back := 0x50000, mode := .green } 0x1049 = 0x41240
    ∧ (c true false).readAddress { r with base := 0x40000, back := 0x50000, mode := .green } 0x1049 = 0x51240 := by decide +kernel

/-- Chapter 9: beacon time 0x4A_3C00_C000, λ 312.5 ticks, arrival 0x4A_3C00_C139.C: e = −1.25 ticks, F from 18.0 to 16.75 ppm and
R = −2.0 ppm. -/
theorem test_discipline_example :
    let s := set State.reset [(od 0x2403 1, 5000), (od 0x2400 8, 4608)]
    let e := beaconOffset s 0 ⟨0x4A3C00C000, 0, 0, 0, 0, 0⟩ 0x4A3C00C139C
    let t := disciplineLoop s e 0
    e = -20 ∧ frequency t = 4288 ∧ t.time.rate = -512 := by decide +kernel

/-- Chapter 10: λ = 300 ticks gives D_r = 952 ticks. -/
theorem test_replay_delay : replayDelay (set State.reset [(od 0x2403 4, 4800)]) 3 = 952 := by decide +kernel

/-- The CRC-8 of a word whose last bit alone is 1 is the generator, by hand (R124). -/
theorem test_crc8 : crc8 1 = 0x2F := by decide +kernel

/-- cc is 4 at nominal clocks: the second period of a line begins 128 cycles after the first bale (R249). -/
theorem test_idle_units : idleUnits (modLink { State.reset with time := { State.reset.time with cycles := 128 } } 3
    (fun k => { k with lineAt := 0, lineUnits := 1280 })) 3 = 4 := by decide +kernel

/-- IEEE 802.3's check value of "123456789". -/
theorem test_crc32 : crc32 [0x31, 0x32, 0x33, 0x34, 0x35, 0x36, 0x37, 0x38, 0x39] = 0xCBF43926 := by decide +kernel

/-- FIPS 180-4's example "abc". -/
theorem test_sha256_abc : (sha256 [0x61, 0x62, 0x63]).take 4 = [0xBA, 0x78, 0x16, 0xBF] := by decide +kernel

/-- Table 16.5, survey a: region 21 at S0, +20 mV, 820 mV with d = 302 taps and M_t = 24 goes to +30 mV with floor S0. -/
theorem test_survey_a :
    let s := set State.reset [(od 0x2C00 5, 24), (od 0x2C00 4, 2), (od (regionAge 21) 1, 20), (od (regionPower 21) 1, 820)]
    surveyRegion { s with power := { s.power with monitors := Table.put [] 0 (6 * 21 + 2) 302 } } 21 = some ⟨30, 0, false, 302, 2⟩ := by
  decide +kernel

/-- Chapter 17: the word 0x8202_0900 counts cycles with two matrix entries held. -/
theorem test_counter_word :
    cfgEvent 0x82020900 = 9 ∧ cfgMode 0x82020900 = 2 ∧ cfgThreshold 0x82020900 = 2 ∧ countOf 0x82020900 2 false = 1
    ∧ countOf 0x82020900 1 false = 0 := by decide

/-- The write frame of chapter 14's example. -/
def stepFrame : Bytes :=
  [0x02, 0x47, 0x00, 0x01, 0x3C, 0x5E, 0x06, 0x00, 0x00, 0x00, 0x00, 0x21, 0x88, 0xB5, 0x01, 0x03, 0x20, 0x00, 0x00, 0x00, 0x00, 0x17,
    0x24, 0x10, 0x01, 0x00, 0x00, 0x01, 0x00, 0x00, 0x02] ++ zeroBytes 29
def runningWheel : State :=
  let s := set (staged workingCore) [(od 0x1100 1, 0x024700013C5E)]
  { s with dict := { s.dict with entries := 6699 } }

/-- Chapter 14: the frame is served: OD 2410.01 reads 2, and journal entry 6,699 has the words that the chapter prints. -/
theorem test_step_change :
    let t := takeFrame runningWheel false stepFrame
    odGet t (od 0x2410 1) = 2 ∧ t.dict.entries = 6700 ∧ (t.dict.journal.head?.map fun e =>
      [0, 1, 4, 6].map fun w => bits e.toNat (64 * w + 63) (64 * w)) = some [0x0101010000001A2B, 0x2410, 0x060000000021, 2] := by
  decide +kernel

/-! One step of a few commands. -/

/-- A core whose X[1] is the greatest 64-bit value. -/
def topCore : Core := { workingCore with regs := { workingCore.regs with x := [(1, 0xFFFFFFFFFFFFFFFF), (2, 2)] } }

/-- X of logical core 0 after a command. -/
def xAfter (c : Instr) (r : Nat) : Option (BitVec 64) := match exec c (staged topCore) with
  | .next t => some ((coreOf t 0).x r)
  | _ => none

theorem test_add_wraps : xAfter (.add 0 3 1 2) 3 = some 1 := by decide
theorem test_sub_same_register : xAfter (.sub 0 1 1 2) 1 = some 0xFFFFFFFFFFFFFFFD := by decide
theorem test_sar_keeps_sign : xAfter (.sar 0 3 1 2) 3 = some 0xFFFFFFFFFFFFFFFF := by decide
theorem test_mul_low_half : xAfter (.mul 0 3 1 1) 3 = some 1 := by decide
theorem test_movi_sign : xAfter (.movi 0 3 0 0x800000) 3 = some 0xFFFFFFFFFF800000 := by decide

end Sys2Proof.Tests
end

section
/-! SUPPORT. The frame of the fuses (R7, R382, R396): one lemma per operation of the model but the raise of the firmware floor, in
the order of the model's files: the operation leaves the fuses as they are.

Where `simp` has to pass through nested writes of objects, `-implicitDefEqProofs` has it write each rewriting down; else the kernel
checks it by unfolding the writes into the object table. -/

namespace Sys2Proof.Machine

variable (s : State)

@[simp] theorem ite_fuses {c : Prop} [Decidable c] (s t : State) : 
    (if c then s else t).fuses = if c then s.fuses else t.fuses :=
  apply_ite ..

@[simp] theorem ite_state_fst {β : Type} {c : Prop} [Decidable c] (p q : State × β) : 
    (if c then p else q).1 = if c then p.1 else q.1 :=
  apply_ite ..

/-- What each step of a fold leaves, the fold leaves. -/
@[simp] theorem foldl_fuses {α : Type} {f : State → α → State} (h : ∀ s x, (f s x).fuses = s.fuses) (l : List α)
    (s : State) : (l.foldl f s).fuses = s.fuses := by
  induction l generalizing s with
  | nil => rfl
  | cons x l ih => rw [List.foldl_cons, ih, h]

/-- The fuses of the state that a match takes out of a pair. -/
theorem fuses_of_eq {β : Type} {p : State × β} {t : State} {r : β} (e : p = (t, r)) : t.fuses = p.1.fuses := by rw [e]

/-! Faults, halts and causes. -/

@[simp] theorem sendFrame_fuses (port : Bool) (frame : Bytes) : (sendFrame s port frame).fuses = s.fuses := by simp [sendFrame]
@[simp] theorem sendEvent_fuses (data : Bytes) : (sendEvent s data).fuses = s.fuses := by simp [sendEvent]
@[simp] theorem sendMsix_fuses (v : Nat) : (sendMsix s v).fuses = s.fuses := by simp [sendMsix]

@[simp] theorem raiseSource_fuses (source : Nat) : (raiseSource s source).fuses = s.fuses := by
  unfold raiseSource
  split <;> simp

@[simp] theorem setDeviceState_fuses (new : Nat) : (setDeviceState s new).fuses = s.fuses := by simp [setDeviceState]
@[simp] theorem deliverRecord_fuses (r : BitVec 256) : (deliverRecord s r).fuses = s.fuses := by simp [deliverRecord]

@[simp] theorem escalateAs_fuses (cause kind unit detail state : Nat) :
    (escalateAs s cause kind unit detail state).fuses = s.fuses := by
  simp only [escalateAs]
  (repeat' split) <;> simp

@[simp] theorem escalate_fuses (cause kind unit detail : Nat) : (escalate s cause kind unit detail).fuses = s.fuses := by
  simp [escalate]

@[simp] theorem enterFaulted_fuses : (enterFaulted s).fuses = s.fuses := by simp [enterFaulted]

@[simp] theorem loseDevice_fuses (cause kind unit detail : Nat) : (loseDevice s cause kind unit detail).fuses = s.fuses := by
  simp [loseDevice]

@[simp] theorem degrade_fuses : (degrade s).fuses = s.fuses := by simp [degrade]
@[simp] theorem settleLoss_fuses : (settleLoss s).fuses = s.fuses := by simp [settleLoss]
@[simp] theorem stopAtPost_fuses (cause kind unit detail : Nat) : (stopAtPost s cause kind unit detail).fuses = s.fuses := rfl

@[simp] theorem raiseLoss_fuses (cause kind unit detail : Nat) : (raiseLoss s cause kind unit detail).fuses = s.fuses := by
  simp [raiseLoss]

@[simp] theorem detect_fuses (kind unit site : Nat) : (detect s kind unit site).fuses = s.fuses := rfl
@[simp] theorem detectFoul_fuses (kind unit site : Nat) : (detectFoul s kind unit site).fuses = s.fuses := rfl

@[simp] theorem chargeHalt_fuses (p : Nat) (h : HaltInfo) (site : Option Nat) : (chargeHalt s p h site).fuses = s.fuses := by
  simp [chargeHalt]

@[simp] theorem takeHaltAt_fuses (n : Nat) (h : HaltInfo) (site : Option Nat) : (takeHaltAt s n h site).fuses = s.fuses := by
  simp -implicitDefEqProofs [takeHaltAt]

@[simp] theorem takeHalt_fuses (n : Nat) (h : HaltInfo) : (takeHalt s n h).fuses = s.fuses := by simp [takeHalt]
@[simp] theorem slot7Halt_fuses (n : Nat) (code : Nat) : (slot7Halt s n code).fuses = s.fuses := by simp [slot7Halt]

@[simp] theorem addLatenessAt_fuses (n cycles cause resource address : Nat) :
    (addLatenessAt s n cycles cause resource address).fuses = s.fuses := by
  simp -implicitDefEqProofs [addLatenessAt]

@[simp] theorem addLateness_fuses (n cycles cause resource : Nat) :
    (addLateness s n cycles cause resource).fuses = s.fuses := by
  simp [addLateness]

@[simp] theorem noteSpill_fuses (nonFinite : Bool) : (noteSpill s nonFinite).fuses = s.fuses := by simp [noteSpill]

/-! Regions, clocks and throttling. -/

@[simp] theorem setRowStep_fuses (row step : Nat) : (setRowStep s row step).fuses = s.fuses := rfl
@[simp] theorem giveTargets_fuses : (giveTargets s).fuses = s.fuses := by simp [giveTargets]
@[simp] theorem setTargets_fuses : (setTargets s).fuses = s.fuses := by simp [setTargets]
@[simp] theorem giveDueTargets_fuses : (giveDueTargets s).fuses = s.fuses := by simp [giveDueTargets]
@[simp] theorem calibrateDie_fuses (d : Nat) : (calibrateDie s d).fuses = s.fuses := rfl
@[simp] theorem settleRegulator_fuses (r : Nat) : (settleRegulator s r).fuses = s.fuses := by simp [settleRegulator]
@[simp] theorem noteFloor_fuses : (noteFloor s).fuses = s.fuses := rfl
@[simp] theorem takeStep_fuses (v : Nat) : (takeStep s v).fuses = s.fuses := by simp [takeStep]
@[simp] theorem prepareStep_fuses (v : Nat) : (prepareStep s v).fuses = s.fuses := by simp [prepareStep]

@[simp] theorem applyStep_fuses : (applyStep s).1.fuses = s.fuses := by
  unfold applyStep
  split <;> simp

@[simp] theorem switchDividers_fuses : (switchDividers s).fuses = s.fuses := by simp [switchDividers]
@[simp] theorem stopRows_fuses : (stopRows s).fuses = s.fuses := by simp -implicitDefEqProofs [stopRows]
@[simp] theorem startRows_fuses : (startRows s).fuses = s.fuses := by simp -implicitDefEqProofs [startRows]
@[simp] theorem enterHold_fuses : (enterHold s).fuses = s.fuses := by simp -implicitDefEqProofs [enterHold]
@[simp] theorem countTrip_fuses (row : Nat) : (countTrip s row).fuses = s.fuses := by simp [countTrip]
@[simp] theorem dropRow_fuses (row : Nat) (carry : Bool) : (dropRow s row carry).fuses = s.fuses := by simp [dropRow]
@[simp] theorem setThrottle_fuses (v : Nat) : (setThrottle s v).fuses = s.fuses := by simp [setThrottle]
@[simp] theorem tripRow_fuses (row : Nat) : (tripRow s row).fuses = s.fuses := by simp [tripRow]
@[simp] theorem applyThrottle_fuses (fair : Bool) : (applyThrottle s fair).fuses = s.fuses := by simp [applyThrottle]

/-! Codes. -/

@[simp] theorem addTerm_fuses (b : Bytes) : (addTerm s b).fuses = s.fuses := rfl

/-! Counters. -/

@[simp] theorem takeSample_fuses (i : Nat) : (takeSample s i).fuses = s.fuses := by simp [takeSample]
@[simp] theorem overflowMessage_fuses : (overflowMessage s).fuses = s.fuses := by simp [overflowMessage]

@[simp] theorem overflowActions_fuses (i action : Nat) (count : Nat) : (overflowActions s i action count).fuses = s.fuses := by
  induction count generalizing s with
  | zero => rfl
  | succ n ih => simp [overflowActions, ih]

@[simp] theorem overflowCounter_fuses (i beyond : Nat) : (overflowCounter s i beyond).fuses = s.fuses := by simp [overflowCounter]
@[simp] theorem addCount_fuses (i n : Nat) : (addCount s i n).fuses = s.fuses := by simp [addCount]
@[simp] theorem countCycle_fuses (i w v : Nat) : (countCycle s i w v).fuses = s.fuses := by simp [countCycle]
@[simp] theorem forgetDisabled_fuses (first count : Nat) : (forgetDisabled s first count).fuses = s.fuses := rfl

@[simp] theorem noteEvent_fuses (first count e n : Nat) (link : Option Nat) :
    (noteEvent s first count e n link).fuses = s.fuses := by
  simp [noteEvent]

@[simp] theorem coreEvent_fuses (n e k : Nat) : (coreEvent s n e k).fuses = s.fuses := by simp [coreEvent]
@[simp] theorem linkEvent_fuses (l e k : Nat) : (linkEvent s l e k).fuses = s.fuses := by simp [linkEvent]
@[simp] theorem engineEvent_fuses (g e k : Nat) : (engineEvent s g e k).fuses = s.fuses := by simp [engineEvent]
@[simp] theorem noteLines_fuses (g n : Nat) (plan : Bool) : (noteLines s g n plan).fuses = s.fuses := by simp [noteLines]
@[simp] theorem takeAccum_fuses (i limit : Nat) : (takeAccum s i limit).1.fuses = s.fuses := rfl

@[simp] theorem latchCore_fuses (n : Nat) : (latchCore s n).fuses = s.fuses := by
  unfold latchCore
  split <;> simp

/-! External memory. -/

@[simp] theorem extWriteLine_fuses (a : Nat) (b : Bytes) (line : Nat) : (extWriteLine s a b line).fuses = s.fuses := by
  unfold extWriteLine
  split <;> simp

@[simp] theorem extWrite_fuses (a : Nat) (b : Bytes) : (extWrite s a b).fuses = s.fuses := by simp [extWrite]
@[simp] theorem stewardWrite_fuses (a : Nat) (b : Bytes) : (stewardWrite s a b).fuses = s.fuses := by simp [stewardWrite]
@[simp] theorem damageCargo_fuses (a : Nat) : (damageCargo s a).fuses = s.fuses := by simp -implicitDefEqProofs [damageCargo]

@[simp] theorem uncorrectable_fuses (line : Nat) (syndrome : BitVec 32) (reader : Bool) :
    (uncorrectable s line syndrome reader).fuses = s.fuses := by
  unfold uncorrectable
  split <;> simp

@[simp] theorem noteLinesAt_fuses (a n : Nat) (plan : Bool) : (noteLinesAt s a n plan).fuses = s.fuses := by
  unfold noteLinesAt
  split <;> simp

@[simp] theorem noteTrackers_fuses : (noteTrackers s).fuses = s.fuses := by simp [noteTrackers]

@[simp] theorem touchPage_fuses (g : GreenRegion) (page : Nat) : (touchPage s g page).1.fuses = s.fuses := by
  simp only [touchPage]
  (repeat' split) <;> simp -implicitDefEqProofs

@[simp] theorem stageWrite_fuses (a : Nat) (b : Bytes) : (stageWrite s a b).1.fuses = s.fuses := by
  simp only [stageWrite]
  split
  · simp
  · split <;> simp [fuses_of_eq ‹_›]

@[simp] theorem mirrorWrites_fuses (n : Nat) (lines : List (Nat × Bytes)) : (mirrorWrites s n lines).fuses = s.fuses := by
  induction lines generalizing s with
  | nil => rfl
  | cons x r ih =>
    unfold mirrorWrites
    split <;> simp [ih, fuses_of_eq ‹_›]

/-! Contexts. -/

@[simp] theorem contextWrite_fuses (n c : Nat) (b : Bytes) : (contextWrite s n c b).fuses = s.fuses := by simp [contextWrite]

/-! A core cycle. -/

@[simp] theorem observeCore_fuses (n : Nat) (c : Core) : (observeCore s n c).fuses = s.fuses := by simp [observeCore]
@[simp] theorem settleDeferred_fuses (n : Nat) : (settleDeferred s n).fuses = s.fuses := by simp [settleDeferred]
@[simp] theorem noteScratchError_fuses (n word : Nat) : (noteScratchError s n word).fuses = s.fuses := by simp [noteScratchError]
@[simp] theorem settleArray_fuses (n : Nat) : (settleArray s n).fuses = s.fuses := by simp [settleArray]

@[simp] theorem readLedgers_fuses (n : Nat) (d : DrainOp) (r : Nat) : (readLedgers s n d r).fuses = s.fuses := by
  simp only [readLedgers]
  (repeat' split) <;> simp

@[simp] theorem cycleReads_fuses (n : Nat) : (cycleReads s n).fuses = s.fuses := by
  unfold cycleReads
  split <;> simp

@[simp] theorem coreCycle_fuses (n : Nat) : (coreCycle s n).fuses = s.fuses := by
  simp only [coreCycle]
  (repeat' split) <;> simp

@[simp] theorem freshCycle_fuses (n : Nat) : (freshCycle s n).fuses = s.fuses := by simp [freshCycle]

/-! Effects of operations. -/

@[simp] theorem sendMirrors_fuses (n a home : Nat) (b : Bytes) : (sendMirrors s n a home b).fuses = s.fuses := by
  simp [sendMirrors]

@[simp] theorem storeBytes_fuses (n a : Nat) (b : Bytes) : (storeBytes s n a b).fuses = s.fuses := by
  simp only [storeBytes]
  (repeat' split) <;> simp

@[simp] theorem effectT_fuses (n : Nat) (pre : Core) (shadow : Bool) (o : TOp) :
    (effectT s n pre shadow o).fuses = s.fuses := by
  unfold effectT
  split <;> simp

@[simp] theorem enterArray_fuses (n : Nat) (m : MatrixOp) (e : Nat) : (enterArray s n m e).fuses = s.fuses := by simp [enterArray]
@[simp] theorem startDrain_fuses (n : Nat) (d : DrainOp) : (startDrain s n d).fuses = s.fuses := by simp [startDrain]

@[simp] theorem effectM_fuses (n : Nat) (pre : Core) (op : MOp) : (effectM s n pre op).fuses = s.fuses := by
  unfold effectM
  split <;> simp

@[simp] theorem effectSlot_fuses (n : Nat) (e : Env) (pre : Core) (shadow : Bool) (o : SlotOp) :
    (effectSlot s n e pre shadow o).fuses = s.fuses := by
  unfold effectSlot
  split <;> simp

/-! Depots. -/

@[simp] theorem modDepot_fuses (n d : Nat) (f : DepotOp → DepotOp) : (modDepot s n d f).fuses = s.fuses := rfl
@[simp] theorem deliverLine_fuses (n a : Nat) (b : Bytes) : (deliverLine s n a b).fuses = s.fuses := by simp [deliverLine]
@[simp] theorem fillLine_fuses (n a : Nat) (b : Bytes) : (fillLine s n a b).1.fuses = s.fuses := by simp [fillLine]
@[simp] theorem setWaybill_fuses (n bit : Nat) : (setWaybill s n bit).fuses = s.fuses := by simp [setWaybill]
@[simp] theorem fetchLine_fuses (n : Nat) (o : DepotOp) : (fetchLine s n o).fuses = s.fuses := by simp [fetchLine]

@[simp] theorem deliverKept_fuses (n d : Nat) (lines : List (Nat × Bytes)) : (deliverKept s n d lines).fuses = s.fuses := by
  induction lines generalizing s with
  | nil => rfl
  | cons x r ih => simp [deliverKept, ih]

@[simp] theorem moveInbound_fuses (n : Nat) (o : DepotOp) : (moveInbound s n o).fuses = s.fuses := by simp [moveInbound]

@[simp] theorem applyOutbound_fuses (n : Nat) (record : Option Nat) (e : Nat) (b : Bytes) :
    (applyOutbound s n record e b).fuses = s.fuses := by
  unfold applyOutbound
  split
  · simp
  · split
    · simp
    · split <;> simp [fuses_of_eq ‹_›]

@[simp] theorem moveOutbound_fuses (n : Nat) (o : DepotOp) : (moveOutbound s n o).fuses = s.fuses := by
  simp only [moveOutbound]
  (repeat' split) <;> simp

@[simp] theorem moveDepotLine_fuses (n d : Nat) : (moveDepotLine s n d).fuses = s.fuses := by
  simp only [moveDepotLine]
  (repeat' split) <;> simp

@[simp] theorem completeDepot_fuses (n d : Nat) : (completeDepot s n d).fuses = s.fuses := by
  unfold completeDepot
  split <;> simp

@[simp] theorem refreshDue_fuses (i : Nat) : (refreshDue s i).fuses = s.fuses := by simp [refreshDue]

/-! The fabric. -/

@[simp] theorem newTag_fuses (requester : Nat) : (newTag s requester).1.fuses = s.fuses := rfl
@[simp] theorem endCopy_fuses (status : Nat) : (endCopy s status).fuses = s.fuses := by simp [endCopy]

@[simp] theorem endTunnel_fuses (x : Tunnel) (status : Nat) : (endTunnel s x status).fuses = s.fuses := by
  unfold endTunnel
  split <;> simp

@[simp] theorem transferFailed_fuses (tag status : Nat) : (transferFailed s tag status).fuses = s.fuses := by
  simp only [transferFailed]
  (repeat' split) <;> simp

@[simp] theorem dropCount_fuses (l status : Nat) : (dropCount s l status).fuses = s.fuses := by simp [dropCount]
@[simp] theorem noteHeld_fuses (l : Nat) : (noteHeld s l).fuses = s.fuses := rfl

@[simp] theorem enqueueDynamic_fuses (l port : Nat) (bale : BitVec 1280) : (enqueueDynamic s l port bale).fuses = s.fuses := by
  simp [enqueueDynamic]

@[simp] theorem enqueueLink_fuses (l port : Nat) (bale : BitVec 1280) : (enqueueLink s l port bale).1.fuses = s.fuses := by
  simp [enqueueLink]

@[simp] theorem routeBale_fuses (port : Nat) (bale : BitVec 1280) : (routeBale s port bale).1.fuses = s.fuses := by
  simp only [routeBale]
  (repeat' split) <;> simp

theorem endTransfer_fuses (src tag : Nat) : ∀ t ∈ endTransfer s src tag, t.fuses = s.fuses := by simp [endTransfer]

@[simp] theorem completeOwn_fuses (tag status : Nat) : (completeOwn s tag status).fuses = s.fuses := by
  unfold completeOwn
  split
  · rfl
  · simp [endTransfer_fuses _ _ _ _ ‹_›]

@[simp] theorem sendNow_fuses (dst : Nat) (bale : BitVec 1280) : (sendNow s dst bale).fuses = s.fuses := by
  simp only [sendNow]
  split <;> simp [fuses_of_eq ‹_›]

@[simp] theorem sendDynamic_fuses (dst kind tag : Nat) (data : Bytes) : (sendDynamic s dst kind tag data).fuses = s.fuses := by
  simp [sendDynamic]

@[simp] theorem releaseWindow_fuses (dst : Nat) (fuel : Nat) : (releaseWindow s dst fuel).fuses = s.fuses := by
  induction fuel generalizing s with
  | zero => rfl
  | succ n ih =>
    simp only [releaseWindow]
    split <;> simp [ih]

@[simp] theorem noteCopyDone_fuses : (noteCopyDone s).fuses = s.fuses := by
  unfold noteCopyDone
  split <;> simp

@[simp] theorem takeAck_fuses (src ack : Nat) (echo : Bool) : (takeAck s src ack echo).fuses = s.fuses := by simp [takeAck]

@[simp] theorem refuseTransfer_fuses (src tag status : Nat) : (refuseTransfer s src tag status).fuses = s.fuses := by
  simp [refuseTransfer]

@[simp] theorem takeLoop_fuses (src : Nat) : (takeLoop s src).fuses = s.fuses := by simp [takeLoop]
@[simp] theorem takeSeq_fuses (src seq : Nat) (mark : Bool) : (takeSeq s src seq mark).1.fuses = s.fuses := by simp [takeSeq]

@[simp] theorem completeDropped_fuses (bale : BitVec 1280) (status : Nat) :
    (completeDropped s bale status).fuses = s.fuses := by
  simp only [completeDropped]
  split
  · rfl
  · split
    · simp
    · split
      · rfl
      · simp [endTransfer_fuses _ _ _ _ ‹_›]

@[simp] theorem forwardBale_fuses (l : Nat) (bale : BitVec 1280) : (forwardBale s l bale).fuses = s.fuses := by
  unfold forwardBale
  split <;> simp [fuses_of_eq ‹_›]

/-! Glaze engines. -/

@[simp] theorem engineBadLine_fuses (line : Nat) : (engineBadLine s line).fuses = s.fuses := by simp [engineBadLine]
@[simp] theorem notePlanLines_fuses (g n : Nat) : (notePlanLines s g n).fuses = s.fuses := by simp [notePlanLines]

@[simp] theorem performAttention_fuses (g : Nat) (h : GlazeHeader) (b : Bytes) :
    (performAttention s g h b).1.fuses = s.fuses := by
  simp only [performAttention]
  (repeat' split) <;> simp

@[simp] theorem performGather_fuses (g : Nat) (h : GlazeHeader) (b : Bytes) : (performGather s g h b).1.fuses = s.fuses := by
  simp only [performGather]
  (repeat' split) <;> simp

@[simp] theorem performReduce_fuses (g : Nat) (h : GlazeHeader) (b : Bytes) : (performReduce s g h b).1.fuses = s.fuses := by
  simp only [performReduce]
  (repeat' split) <;> simp

@[simp] theorem takeReplyPorts_fuses (n a k : Nat) : (takeReplyPorts s n a k).fuses = s.fuses := rfl

@[simp] theorem replyLines_fuses (n a : Nat) (b : Bytes) (lines : Nat) : (replyLines s n a b lines).1.fuses = s.fuses := by
  induction lines generalizing s a b with
  | zero => rfl
  | succ n ih => simp [replyLines, ih]

@[simp] theorem writeReply_fuses (g : Nat) (h : GlazeHeader) (r : GlazeReply) : (writeReply s g h r).fuses = s.fuses := by
  simp [writeReply]

@[simp] theorem noteRun_fuses (r : EngineRun) : (noteRun s r).fuses = s.fuses := by simp [noteRun]
@[simp] theorem takeCheckError_fuses (g : Nat) : (takeCheckError s g).fuses = s.fuses := by simp [takeCheckError]

@[simp] theorem performPlan_fuses (g : Nat) (b : Bytes) : (performPlan s g b).1.fuses = s.fuses := by
  simp only [performPlan]
  (repeat' split) <;> simp

@[simp] theorem performHeld_fuses (run : EngineRun) (ops : Nat → Bool) : (performHeld s run ops).fuses = s.fuses := by
  simp only [performHeld]
  (repeat' split) <;> simp

@[simp] theorem noteInbox_fuses (g : Nat) : (noteInbox s g).fuses = s.fuses := by simp [noteInbox]
@[simp] theorem fillInbox_fuses (g : Nat) (b : Bytes) : (fillInbox s g b).fuses = s.fuses := by simp [fillInbox]

@[simp] theorem reportDynamic_fuses (g op tag status copied : Nat) :
    (reportDynamic s g op tag status copied).fuses = s.fuses := by
  simp -implicitDefEqProofs [reportDynamic]

@[simp] theorem noteDynamicLines_fuses (g n : Nat) : (noteDynamicLines s g n).fuses = s.fuses := by simp [noteDynamicLines]

@[simp] theorem copyLocal_fuses (g src dst line : Nat) : (copyLocal s g src dst line).1.fuses = s.fuses := by
  unfold copyLocal
  split <;> simp

@[simp] theorem copyRemote_fuses (g : Nat) (p : CopyParams) (tag src dst line : Nat) :
    (copyRemote s g p tag src dst line).1.fuses = s.fuses := by
  unfold copyRemote
  split <;> simp

@[simp] theorem pairTag_fuses (g : Nat) (d : DynOp) : (pairTag s g d).1.fuses = s.fuses := by simp [pairTag]

@[simp] theorem finishDynamic_fuses (g : Nat) (d : DynOp) (rest : List DynOp) (status : Nat) :
    (finishDynamic s g d rest status).fuses = s.fuses := by
  simp [finishDynamic]

@[simp] theorem copyStep_fuses (g : Nat) (d : DynOp) (rest : List DynOp) : (copyStep s g d rest).fuses = s.fuses := by
  simp only [copyStep]
  (repeat' split) <;> simp

@[simp] theorem dynamicStep_fuses (run : EngineRun) (op : Nat) : (dynamicStep s run op).fuses = s.fuses := by
  simp only [dynamicStep]
  (repeat' split) <;> simp

@[simp] theorem requestArrives_fuses (g : Nat) (source : GlazeSource) (request : Bytes) :
    (requestArrives s g source request).fuses = s.fuses := by
  unfold requestArrives
  (repeat' split) <;> simp

@[simp] theorem acceptRequest_fuses (g : Nat) : (acceptRequest s g).fuses = s.fuses := by
  simp only [acceptRequest]
  (repeat' split) <;> simp

@[simp] theorem abandonRequests_fuses (g : Nat) : (abandonRequests s g).fuses = s.fuses := by simp [abandonRequests]

/-! Issue. -/

@[simp] theorem faultBundle_fuses (n code slot : Nat) (word : Option Nat) :
    (faultBundle s n code slot word).fuses = s.fuses := by
  unfold faultBundle
  split <;> simp

@[simp] theorem freeDoubles_fuses (n : Nat) (ops : List SlotOp) : (freeDoubles s n ops).fuses = s.fuses := by simp [freeDoubles]

@[simp] theorem issueOps_fuses (n : Nat) (h : Header) (ops : List SlotOp) (nest isJoin : Bool) :
    (issueOps s n h ops nest isJoin).fuses = s.fuses := by
  simp -implicitDefEqProofs [issueOps]

@[simp] theorem noteAtPost_fuses (n : Nat) (h : Header) : (noteAtPost s n h).fuses = s.fuses := by simp [noteAtPost]

@[simp] theorem carryOut_fuses (n : Nat) (v : Verdict) (h : Header) (ops : List SlotOp) (nest isJoin : Bool)
      (waiting : Option SlotOp) :
    (carryOut s n v h ops nest isJoin waiting).fuses = s.fuses := by
  unfold carryOut
  split <;> simp

@[simp] theorem haltOverrun_fuses (n : Nat) : (haltOverrun s n).fuses = s.fuses := by simp [haltOverrun]

@[simp] theorem fetchAndIssue_fuses (n : Nat) (isJoin : Bool) : (fetchAndIssue s n isJoin).fuses = s.fuses := by
  simp [fetchAndIssue]

@[simp] theorem issueBundle_fuses (n : Nat) : (issueBundle s n).fuses = s.fuses := by simp [issueBundle]
@[simp] theorem issueSlot_fuses (n : Nat) (o : SlotOp) : (issueSlot s n o).fuses = s.fuses := by simp [issueSlot]

@[simp] theorem retryStall_fuses (n : Nat) : (retryStall s n).fuses = s.fuses := by
  simp only [retryStall]
  (repeat' split) <;> simp

/-! Bundles. -/

@[simp] theorem countSlots_fuses (n e : Nat) (slots : Table Nat) : (countSlots s n e slots).fuses = s.fuses := by
  simp [countSlots]

@[simp] theorem releaseHold_fuses (n : Nat) (entries : List HoldEntry) : (releaseHold s n entries).1.fuses = s.fuses := by
  induction entries generalizing s with
  | nil => rfl
  | cons x r ih => cases x <;> simp [releaseHold, ih]

@[simp] theorem releaseDepots_fuses (n : Nat) (ops : List DepotOp) : (releaseDepots s n ops).fuses = s.fuses := by
  simp [releaseDepots]

@[simp] theorem commitWindow_fuses (n : Nat) (g : BranchRegion) : (commitWindow s n g).fuses = s.fuses := by
  simp only [commitWindow]
  (repeat' split) <;> simp

@[simp] theorem dropWindow_fuses (n : Nat) (g : BranchRegion) : (dropWindow s n g).fuses = s.fuses := by simp [dropWindow]

@[simp] theorem resolveBranch_fuses (n : Nat) : (resolveBranch s n).fuses = s.fuses := by
  simp only [resolveBranch]
  (repeat' split) <;> simp

@[simp] theorem issueJoin_fuses (n : Nat) : (issueJoin s n).fuses = s.fuses := by
  simp only [issueJoin]
  (repeat' split) <;> simp

@[simp] theorem issuePost_fuses (n : Nat) : (issuePost s n).fuses = s.fuses := by simp [issuePost]

@[simp] theorem releaseWait_fuses (n : Nat) : (releaseWait s n).fuses = s.fuses := by
  unfold releaseWait
  split <;> simp

@[simp] theorem showStores_fuses (n : Nat) : (showStores s n).fuses = s.fuses := rfl

/-! Upkeep. -/

@[simp] theorem setBad_fuses (a : Nat) (syndrome : BitVec 32) : (setBad s a syndrome).fuses = s.fuses := rfl

@[simp] theorem noteCorrected_fuses (line : Nat) : (noteCorrected s line).fuses = s.fuses := by
  unfold noteCorrected
  split <;> simp

@[simp] theorem endReread_fuses (line : Nat) (check : ReadCheck) : (endReread s line check).fuses = s.fuses := by
  unfold endReread
  (repeat' split) <;> simp

@[simp] theorem scrubLine_fuses (a : Nat) (check : ReadCheck) : (scrubLine s a check).fuses = s.fuses := by
  unfold scrubLine
  split <;> simp

@[simp] theorem scrubFinds_fuses (n word : Nat) : (scrubFinds s n word).fuses = s.fuses := by simp [scrubFinds]

@[simp] theorem passMirror_fuses (n bank : Nat) : (passMirror s n bank).fuses = s.fuses := by
  unfold passMirror
  split <;> simp

@[simp] theorem wantPort_fuses (n bank : Nat) (want : BitVec 4) : (wantPort s n bank want).fuses = s.fuses := rfl
@[simp] theorem grantOuter_fuses (n bank : Nat) : (grantOuter s n bank).fuses = s.fuses := by simp [grantOuter]

@[simp] theorem writeBank_fuses (n : Nat) (bank inRange dataError : Bool) (f : Core → Core) :
    (writeBank s n bank inRange dataError f).fuses = s.fuses := by
  simp [writeBank]

/-! Reload. -/

@[simp] theorem loadCore_fuses (n : Nat) : (loadCore s n).fuses = s.fuses := by simp [loadCore]
@[simp] theorem awaitLoad_fuses (n : Nat) : (awaitLoad s n).fuses = s.fuses := by simp [awaitLoad]
@[simp] theorem finishReload_fuses : (finishReload s).fuses = s.fuses := by simp [finishReload]

@[simp] theorem repairWord_fuses (n word : Nat) : (repairWord s n word).fuses = s.fuses := by
  simp only [repairWord]
  (repeat' split) <;> simp

@[simp] theorem repairBank_fuses (n : Nat) : (repairBank s n).fuses = s.fuses := by simp [repairBank]
@[simp] theorem repairAll_fuses : (repairAll s).fuses = s.fuses := by simp [repairAll]

/-! Firing. -/

@[simp] theorem firePages_fuses : (firePages s).fuses = s.fuses := rfl
@[simp] theorem fireEntry_fuses (c : Nat) : (fireEntry s c).fuses = s.fuses := by simp [fireEntry]
@[simp] theorem putSlot_fuses (x : Nat × Nat) : (putSlot s x).fuses = s.fuses := by simp [putSlot]
@[simp] theorem rebalance_fuses : (rebalance s).fuses = s.fuses := by simp [rebalance]
@[simp] theorem flipContexts_fuses : (flipContexts s).fuses = s.fuses := by simp -implicitDefEqProofs [flipContexts]
@[simp] theorem setControl_fuses (w v : Nat) : (setControl s w v).fuses = s.fuses := by simp [setControl]

@[simp] theorem writeRecord_fuses (w : Nat) (s : State) (r : OutRecord) : (writeRecord w s r).fuses = s.fuses := by
  simp -implicitDefEqProofs [writeRecord]

@[simp] theorem raiseWaystation_fuses (w : Nat) : (raiseWaystation s w).fuses = s.fuses := by simp [raiseWaystation]

@[simp] theorem fireWords_fuses (drafts : List (Nat × Nat)) (s : State) (w : Nat) : (fireWords drafts s w).fuses = s.fuses := by
  simp [fireWords]

@[simp] theorem releaseSlots_fuses (w : Nat) : (releaseSlots s w).fuses = s.fuses := by simp [releaseSlots]
@[simp] theorem fireLog_fuses : (fireLog s).fuses = s.fuses := by simp [fireLog]
@[simp] theorem fire_fuses : (fire s).fuses = s.fuses := by simp -implicitDefEqProofs [fire]
@[simp] theorem reclaim_fuses : (reclaim s).fuses = s.fuses := by simp -implicitDefEqProofs [reclaim]

@[simp] theorem countWork_fuses (foul : Bool) : (countWork s foul).fuses = s.fuses := by
  refine foldl_fuses (fun s n => ?_) _ _
  dsimp only
  split <;> simp

@[simp] theorem logFingerprint_fuses (foul : Bool) : (logFingerprint s foul).fuses = s.fuses := by simp [logFingerprint]
@[simp] theorem actionTwo_fuses (foul : Bool) : (actionTwo s foul).fuses = s.fuses := by simp -implicitDefEqProofs [actionTwo]

/-! The journal. -/

@[simp] theorem addJournal_fuses (path source id status flags old new : Nat) :
    (addJournal s path source id status flags old new).fuses = s.fuses := rfl

/-! Link states. -/

@[simp] theorem setLinkState_fuses (l st : Nat) : (setLinkState s l st).fuses = s.fuses := rfl
@[simp] theorem checkReady_fuses : (checkReady s).fuses = s.fuses := by simp [checkReady]
@[simp] theorem putNotice_fuses (l : Nat) (restored : Bool) : (putNotice s l restored).fuses = s.fuses := rfl

@[simp] theorem dropBale_fuses (l : Nat) (bale : BitVec 1280) (status : Nat) : (dropBale s l bale status).fuses = s.fuses := by
  simp [dropBale]

@[simp] theorem handToDetour_fuses (l : Nat) : (handToDetour s l).fuses = s.fuses := rfl
@[simp] theorem holdDynamic_fuses (l : Nat) : (holdDynamic s l).fuses = s.fuses := by simp [holdDynamic]
@[simp] theorem declareDown_fuses (l cause : Nat) : (declareDown s l cause).fuses = s.fuses := by simp [declareDown]
@[simp] theorem retireLink_fuses (l : Nat) : (retireLink s l).fuses = s.fuses := by simp [retireLink]
@[simp] theorem requestRetire_fuses (l : Nat) : (requestRetire s l).fuses = s.fuses := by simp [requestRetire]
@[simp] theorem endAttempt_fuses (l : Nat) : (endAttempt s l).fuses = s.fuses := by simp [endAttempt]
@[simp] theorem failAttempt_fuses (l : Nat) : (failAttempt s l).fuses = s.fuses := by simp [failAttempt]
@[simp] theorem sendControl_fuses (l op param : Nat) : (sendControl s l op param).fuses = s.fuses := rfl
@[simp] theorem enterUp_fuses (l : Nat) : (enterUp s l).fuses = s.fuses := by simp [enterUp]
@[simp] theorem startAttempt_fuses (l : Nat) (lead : Bool) : (startAttempt s l lead).fuses = s.fuses := by simp [startAttempt]
@[simp] theorem applyRetrain_fuses (l : Nat) : (applyRetrain s l).fuses = s.fuses := by simp [applyRetrain]
@[simp] theorem enterNarrow_fuses (l : Nat) (lane : Bool) : (enterNarrow s l lane).fuses = s.fuses := by simp [enterNarrow]
@[simp] theorem noteReplaying_fuses (l : Nat) : (noteReplaying s l).fuses = s.fuses := by simp [noteReplaying]

@[simp] theorem resendNak_fuses (l : Nat) : (resendNak s l).fuses = s.fuses := by
  simp only [resendNak]
  (repeat' split) <;> simp

@[simp] theorem overdueReplay_fuses (l : Nat) : (overdueReplay s l).fuses = s.fuses := by simp [overdueReplay]
@[simp] theorem ackTimeout_fuses (l : Nat) : (ackTimeout s l).fuses = s.fuses := by simp [ackTimeout]
@[simp] theorem endBadWindow_fuses (l : Nat) : (endBadWindow s l).fuses = s.fuses := by simp [endBadWindow]
@[simp] theorem loseSignal_fuses (l : Nat) : (loseSignal s l).fuses = s.fuses := by simp [loseSignal]
@[simp] theorem endHold_fuses (l : Nat) : (endHold s l).fuses = s.fuses := by simp [endHold]
@[simp] theorem failLane_fuses (l : Nat) (lane : Bool) : (failLane s l lane).fuses = s.fuses := by simp [failLane]
@[simp] theorem takeNarrow_fuses (l : Nat) (lane : Bool) : (takeNarrow s l lane).fuses = s.fuses := by simp [takeNarrow]
@[simp] theorem takeRetrain_fuses (l peer : Nat) : (takeRetrain s l peer).fuses = s.fuses := by simp [takeRetrain]
@[simp] theorem pmdDone_fuses (l lanes : Nat) : (pmdDone s l lanes).fuses = s.fuses := by simp [pmdDone]
@[simp] theorem takeHello_fuses (l param slot : Nat) : (takeHello s l param slot).fuses = s.fuses := by simp [takeHello]
@[simp] theorem takeEcho_fuses (l arrival : Nat) : (takeEcho s l arrival).fuses = s.fuses := by simp [takeEcho]

@[simp] theorem takeEchoReply_fuses (l delay arrival : Nat) : (takeEchoReply s l delay arrival).fuses = s.fuses := by
  simp [takeEchoReply]

@[simp] theorem finishClean_fuses (l : Nat) : (finishClean s l).fuses = s.fuses := rfl
@[simp] theorem readySent_fuses (l : Nat) : (readySent s l).fuses = s.fuses := by simp [readySent]
@[simp] theorem takeReady_fuses (l : Nat) : (takeReady s l).fuses = s.fuses := by simp [takeReady]

/-! Surveys. -/

@[simp] theorem computeSurvey_fuses : (computeSurvey s).fuses = s.fuses := by simp [computeSurvey]
@[simp] theorem applyPlan_fuses (r : Nat) (p : SurveyPlan) : (applyPlan s r p).fuses = s.fuses := by simp [applyPlan]
@[simp] theorem applySurvey_fuses : (applySurvey s).fuses = s.fuses := by simp [applySurvey]
@[simp] theorem triggerSurvey_fuses (foul : Bool) : (triggerSurvey s foul).fuses = s.fuses := by simp [triggerSurvey]

/-! The post. -/

@[simp] theorem switchOverCore_fuses (p : Nat) : (switchOverCore s p).fuses = s.fuses := by simp [switchOverCore]

@[simp] theorem actionThree_fuses : (actionThree s).fuses = s.fuses := by
  unfold actionThree
  split <;> simp

@[simp] theorem takeEpoch_fuses : (takeEpoch s).fuses = s.fuses := by simp -implicitDefEqProofs [takeEpoch]
@[simp] theorem actionFour_fuses (notices : List (BitVec 32)) : (actionFour s notices).fuses = s.fuses := by simp [actionFour]
@[simp] theorem actionFive_fuses (foul : Bool) : (actionFive s foul).fuses = s.fuses := by simp [actionFive]
@[simp] theorem clearPosted_fuses (id : Nat) : (clearPosted s id).fuses = s.fuses := by simp [clearPosted]

@[simp] theorem takeTarget_fuses (v : Nat) : (takeTarget s v).fuses = s.fuses := by
  simp only [takeTarget]
  (repeat' split) <;> simp

@[simp] theorem applyArm_fuses (v : Nat) : (applyArm s v).fuses = s.fuses := by simp [applyArm]

@[simp] theorem applyLanding_fuses (touched : List Nat) (v : Nat) : (applyLanding s touched v).fuses = s.fuses := by
  simp [applyLanding]

@[simp] theorem postTimedEffect_fuses (touched : List Nat) (id v : Nat) : (postTimedEffect s touched id v).fuses = s.fuses := by
  simp [postTimedEffect]

@[simp] theorem refuseLatched_fuses (id : Nat) : (refuseLatched s id).fuses = s.fuses := by simp [refuseLatched]

@[simp] theorem applyLatched_fuses (touched : List Nat) (s : State) (x : Nat × Nat) :
    (applyLatched touched s x).fuses = s.fuses := by
  simp [applyLatched]

@[simp] theorem actionSix_fuses (touched : List Nat) : (actionSix s touched).fuses = s.fuses := by simp [actionSix]
@[simp] theorem switchBank_fuses (n : Nat) : (switchBank s n).fuses = s.fuses := by simp [switchBank]

@[simp] theorem weightSwitch_fuses (late : Bool) : (weightSwitch s late).fuses = s.fuses := by
  unfold weightSwitch
  split <;> simp

@[simp] theorem actionSeven_fuses (applied : List (Nat × Nat)) : (actionSeven s applied).fuses = s.fuses := by simp [actionSeven]
@[simp] theorem showLeg_fuses : (showLeg s).fuses = s.fuses := by simp [showLeg]

@[simp] theorem exchangeRequests_fuses (old new : Nat) : (exchangeRequests s old new).fuses = s.fuses := by
  simp -implicitDefEqProofs [exchangeRequests]

@[simp] theorem rotateTo_fuses (e : Nat) : (rotateTo s e).fuses = s.fuses := by simp [rotateTo]

@[simp] theorem actionEight_fuses : (actionEight s).fuses = s.fuses := by
  simp only [actionEight]
  (repeat' split) <;> simp

@[simp] theorem escalateRaised_fuses : (escalateRaised s).fuses = s.fuses := by simp [escalateRaised]
@[simp] theorem noteVerdict_fuses (v own : Vote) : (noteVerdict s v own).fuses = s.fuses := by simp [noteVerdict]

@[simp] theorem missTally_fuses : (missTally s).fuses = s.fuses := by
  unfold missTally
  split <;> simp

@[simp] theorem fairActions_fuses (foul : Bool) (touched : List Nat) : (fairActions s foul touched).fuses = s.fuses := by
  simp [fairActions]

@[simp] theorem leaveStages_fuses : (leaveStages s).fuses = s.fuses := by simp -implicitDefEqProofs [leaveStages]
@[simp] theorem actionNine_fuses (v : Vote) (stopped : Bool) : (actionNine s v stopped).fuses = s.fuses := by simp [actionNine]
@[simp] theorem endTraffic_fuses : (endTraffic s).fuses = s.fuses := by simp -implicitDefEqProofs [endTraffic]
@[simp] theorem post_fuses (v own : Vote) : (post s v own).fuses = s.fuses := by simp -implicitDefEqProofs [post]
@[simp] theorem followPost_fuses (v own : Vote) : (followPost s v own).fuses = s.fuses := by simp [followPost]

@[simp] theorem verdict_fuses : (verdict s).fuses = s.fuses := by
  unfold verdict
  split <;> simp -implicitDefEqProofs

/-! Mesh and die-to-die moves. -/

@[simp] theorem setUnits_fuses (k : Nat) (l : List (Nat × FabricUnit)) : (setUnits s k l).fuses = s.fuses := rfl
@[simp] theorem pushUnit_fuses (k at' : Nat) (u : FabricUnit) : (pushUnit s k at' u).fuses = s.fuses := rfl

@[simp] theorem checkUnit_fuses (kind unit : Nat) (u : FabricUnit) (error : BitVec 1152) :
    (checkUnit s kind unit u error).1.fuses = s.fuses := by
  unfold checkUnit
  split <;> simp

@[simp] theorem breakEnd_fuses (k : Nat) : (breakEnd s k).fuses = s.fuses := rfl
@[simp] theorem doubleBooked_fuses : (doubleBooked s).fuses = s.fuses := rfl

@[simp] theorem reduceElement_fuses (n : Nat) (w : Int) (input output a v : Nat) :
    (reduceElement s n w input output a v).1.fuses = s.fuses := by
  simp only [reduceElement]
  (repeat' split) <;> simp

@[simp] theorem reduceElements_fuses (n : Nat) (e : LinkEntry) (address first : Nat) (b : Bytes) (count : Nat) :
    (reduceElements s n e address first b count).1.fuses = s.fuses := by
  induction count with
  | zero => rfl
  | succ n ih => simp [reduceElements, ih]

@[simp] theorem noteEnd_fuses (n m : Nat) (ok : Bool) (x : Nat × LinkEntry) : (noteEnd s n m ok x).fuses = s.fuses := by
  simp [noteEnd]

@[simp] theorem writeFlit_fuses (n a : Nat) (u : BitVec 1024) : (writeFlit s n a u).1.fuses = s.fuses := by simp [writeFlit]

@[simp] theorem reduceFlit_fuses (row stop entry n : Nat) (p : LinkEntry) (a i : Nat) (u : BitVec 1024) :
    (reduceFlit s row stop entry n p a i u).1.fuses = s.fuses := by
  simp [reduceFlit]

@[simp] theorem dropStream_fuses (k : Nat) : (dropStream s k).fuses = s.fuses := rfl

@[simp] theorem deliverFlit_fuses (row stop entry : Nat) (e : MeshEntry) (i : Nat) (u : FabricUnit) :
    (deliverFlit s row stop entry e i u).1.fuses = s.fuses := by
  simp only [deliverFlit]
  (repeat' split) <;> simp

@[simp] theorem forwardFlit_fuses (row stop : Nat) (e : MeshEntry) (i t : Nat) (u : FabricUnit) :
    (forwardFlit s row stop e i t u).fuses = s.fuses := by
  unfold forwardFlit
  (repeat' split) <;> simp

@[simp] theorem readFlit_fuses (row stop : Nat) (e : MeshEntry) (i : Nat) : (readFlit s row stop e i).1.fuses = s.fuses := by
  simp only [readFlit]
  (repeat' split) <;> simp

@[simp] theorem takeFlit_fuses (row stop : Nat) (e : MeshEntry) (i t : Nat) (error : BitVec 1152) :
    (takeFlit s row stop e i t error).1.fuses = s.fuses := by
  simp only [takeFlit]
  (repeat' split) <;> simp

@[simp] theorem setMoved_fuses (row stop entry n : Nat) : (setMoved s row stop entry n).fuses = s.fuses := rfl

@[simp] theorem usePorts_fuses (row stop : Nat) (banks : List Nat) (t : Nat) (passes : Bool) :
    (usePorts s row stop banks t passes).fuses = s.fuses := by
  unfold usePorts
  split <;> simp

@[simp] theorem moveFlit_fuses (row stop entry : Nat) (e : MeshEntry) (error : BitVec 1152) :
    (moveFlit s row stop entry e error).1.fuses = s.fuses := by
  simp only [moveFlit]
  split
  · rfl
  · split
    · simp
    · split
      · simp [fuses_of_eq ‹_›]
      · simp [fuses_of_eq ‹_›]
      · split
        · simp [fuses_of_eq ‹_›]
        · split
          · simp [fuses_of_eq ‹_›]
          · split <;> simp [fuses_of_eq ‹takeFlit _ _ _ _ _ _ _ = _›]

@[simp] theorem moveFlits_fuses (row stop entry : Nat) (e : MeshEntry) (error : BitVec 1152) (fuel : Nat) :
    (moveFlits s row stop entry e error fuel).fuses = s.fuses := by
  induction fuel generalizing s error with
  | zero => rfl
  | succ n ih =>
    unfold moveFlits
    split <;> simp [ih, fuses_of_eq ‹_›]

@[simp] theorem fillSource_fuses (link entry place : Nat) (u : BitVec 1024) :
    (fillSource s link entry place u).fuses = s.fuses := rfl

@[simp] theorem deliverUnit_fuses (side entry i : Nat) (u : FabricUnit) : (deliverUnit s side entry i u).fuses = s.fuses := by
  simp only [deliverUnit]
  (repeat' split) <;> simp

@[simp] theorem setDieMoved_fuses (side entry n : Nat) : (setDieMoved s side entry n).fuses = s.fuses := rfl

@[simp] theorem takeUnit_fuses (side entry : Nat) (e : DieEntry) (i : Nat) : (takeUnit s side entry e i).1.fuses = s.fuses := by
  unfold takeUnit
  (repeat' split) <;> simp

@[simp] theorem moveUnit_fuses (side entry : Nat) (e : DieEntry) (error : BitVec 1152) :
    (moveUnit s side entry e error).1.fuses = s.fuses := by
  simp only [moveUnit]
  split
  · rfl
  · split
    · simp [fuses_of_eq ‹_›]
    · simp [fuses_of_eq ‹_›]
    · split
      · simp [fuses_of_eq ‹_›]
      · split <;> simp [fuses_of_eq ‹_›]

@[simp] theorem moveUnits_fuses (side entry : Nat) (e : DieEntry) (error : BitVec 1152) (fuel : Nat) :
    (moveUnits s side entry e error fuel).fuses = s.fuses := by
  induction fuel generalizing s error with
  | zero => rfl
  | succ n ih =>
    unfold moveUnits
    split <;> simp [ih, fuses_of_eq ‹_›]

/-! Bales. -/

@[simp] theorem noteDetoured_fuses (l n i : Nat) : (noteDetoured s l n i).fuses = s.fuses := rfl

theorem bookedSending_fuses (detour : Bool) (claims : List (Nat × Nat × Nat)) :
    ∀ t ∈ bookedSending s detour claims, t.1.fuses = s.fuses := by
  simp only [bookedSending]
  (repeat' split) <;> simp -implicitDefEqProofs

theorem relaySending_fuses (p n : Nat) : ∀ t ∈ relaySending s p n, t.1.fuses = s.fuses := by
  simp only [relaySending]
  (repeat' split) <;> simp

theorem replaySending_fuses (p : Nat) : ∀ t ∈ replaySending s p, t.1.fuses = s.fuses := by
  simp only [replaySending]
  (repeat' split) <;> simp

theorem dynamicSending_fuses (p : Nat) : ∀ t ∈ dynamicSending s p, t.1.fuses = s.fuses := by
  simp only [dynamicSending]
  (repeat' split) <;> simp

theorem serviceControl_fuses (p n : Nat) : ∀ t ∈ serviceControl s p n, t.1.fuses = s.fuses := by
  simp only [serviceControl]
  (repeat' split) <;> simp

theorem detourSending_fuses (p n : Nat) : ∀ t ∈ detourSending s p n, t.1.fuses = s.fuses := by
  unfold detourSending
  split
  · simp
  · exact bookedSending_fuses _ _ _

@[simp] theorem freeSlot_fuses (p n : Nat) : (freeSlot s p n).1.fuses = s.fuses := by
  simp only [freeSlot]
  split
  · exact replaySending_fuses _ _ _ ‹_›
  · split
    · exact detourSending_fuses _ _ _ _ (Option.ite_none_left_eq_some.mp ‹_›).2
    · split
      · exact dynamicSending_fuses _ _ _ ‹_›
      · rfl

@[simp] theorem upSlot_fuses (p n : Nat) : (upSlot s p n).1.fuses = s.fuses := by
  simp only [upSlot]
  split
  · exact serviceControl_fuses _ _ _ _ (Option.ite_none_right_eq_some.mp ‹_›).2
  · split
    · rfl
    · split
      · exact relaySending_fuses _ _ _ _ (Option.ite_none_left_eq_some.mp ‹_›).2
      · split
        · exact bookedSending_fuses _ _ _ _ (Option.ite_none_left_eq_some.mp ‹_›).2
        · simp

@[simp] theorem sendBale_fuses (p n : Nat) (x : Sending) : (sendBale s p n x).fuses = s.fuses := by simp [sendBale]
@[simp] theorem sendBeacon_fuses (p n : Nat) : (sendBeacon s p n).fuses = s.fuses := rfl
@[simp] theorem startPeriod_fuses (p n : Nat) : (startPeriod s p n).fuses = s.fuses := by simp [startPeriod]
@[simp] theorem sendDown_fuses (p n : Nat) : (sendDown s p n).fuses = s.fuses := rfl

@[simp] theorem trainSlot_fuses (p n : Nat) : (trainSlot s p n).fuses = s.fuses := by
  simp only [trainSlot]
  split
  · simp
  · split
    · simp
    · split
      · have h := serviceControl_fuses _ _ _ _ ‹_›
        simpa using h
      · simp

@[simp] theorem startSlot_fuses (p n : Nat) : (startSlot s p n).fuses = s.fuses := by simp [startSlot]
@[simp] theorem takeBad_fuses (p slot : Nat) : (takeBad s p slot).fuses = s.fuses := by simp [takeBad]
@[simp] theorem noteReceived_fuses (p : Nat) (slots : List Nat) : (noteReceived s p slots).fuses = s.fuses := rfl
@[simp] theorem takeLinkAck_fuses (p h : Nat) : (takeLinkAck s p h).fuses = s.fuses := by simp [takeLinkAck]
@[simp] theorem noteLate_fuses (p slot : Nat) : (noteLate s p slot).fuses = s.fuses := by simp [noteLate]
@[simp] theorem unexpectedBale_fuses : (unexpectedBale s).fuses = s.fuses := by simp [unexpectedBale]

@[simp] theorem fillFrom_fuses (l n : Nat) (e : LinkEntry) (old : List Nat) : (fillFrom s l n e old).fuses = s.fuses := by
  simp [fillFrom]

@[simp] theorem endBale_fuses (l n i : Nat) (e : LinkEntry) (b : Bytes) : (endBale s l n i e b).fuses = s.fuses := by
  unfold endBale
  split <;> simp only [ite_state_fst, ite_fuses, ite_self, fillFrom_fuses, setWaybill_fuses, fillLine_fuses, reduceElements_fuses,
    breakEnd_fuses]

@[simp] theorem takePlan_fuses (p slot : Nat) (bale : BitVec 1280) : (takePlan s p slot bale).fuses = s.fuses := by
  simp only [takePlan]
  (repeat' split) <;> simp

@[simp] theorem takeDynamic_fuses (p : Nat) (bale : BitVec 1280) : (takeDynamic s p bale).1.fuses = s.fuses := by
  simp -implicitDefEqProofs [takeDynamic]

@[simp] theorem takeGood_fuses (p slot : Nat) (bale : BitVec 1280) : (takeGood s p slot bale).1.fuses = s.fuses := by
  simp only [takeGood]
  (repeat' split) <;> simp

@[simp] theorem receiveBale_fuses (p : Nat) (seq : Nat) (bale : BitVec 1280) (fec : FecReading) :
    (receiveBale s p seq bale fec).1.fuses = s.fuses := by
  simp only [receiveBale]
  (repeat' split) <;> simp -implicitDefEqProofs

/-! Cargo. -/

@[simp] theorem takeNonce_fuses (nonce : Bytes) : (takeNonce s nonce).fuses = s.fuses := rfl
@[simp] theorem cargoBadLine_fuses (line detail : Nat) : (cargoBadLine s line detail).1.fuses = s.fuses := by simp [cargoBadLine]

@[simp] theorem openCargo_fuses : (openCargo s).1.fuses = s.fuses := by
  simp only [openCargo]
  (repeat' split) <;> simp

@[simp] theorem cargoPage_fuses (e k : Nat) (source : Option Nat) : (cargoPage s e k source).1.fuses = s.fuses := by
  simp only [cargoPage]
  (repeat' split) <;> simp -implicitDefEqProofs

@[simp] theorem cargoPages_fuses (e : Nat) (source : Option Nat) (m : Nat) (k : Nat) (s : State) (judged : List
      (Nat × Nat × Bool)) :
    (cargoPages e source m k s judged).1.fuses = s.fuses := by
  induction m generalizing k s judged source with
  | zero => rfl
  | succ n ih =>
    unfold cargoPages
    split <;> simp [ih, fuses_of_eq ‹_›]

@[simp] theorem pagesCargo_fuses (copy : Bool) : (pagesCargo s copy).1.fuses = s.fuses := by simp [pagesCargo]
@[simp] theorem startCargo_fuses (r : CargoRun) : (startCargo s r).fuses = s.fuses := rfl

@[simp] theorem cargoCommand_fuses (c : Nat) : (cargoCommand s c).fuses = s.fuses := by
  simp only [cargoCommand]
  (repeat' split) <;> simp

@[simp] theorem endCargo_fuses (r : CargoRun) : (endCargo s r).fuses = s.fuses := by
  unfold endCargo
  (repeat' split) <;> simp

/-! Firmware. -/

@[simp] theorem programFlash_fuses (a : Nat) (b : Bytes) : (programFlash s a b).fuses = s.fuses := rfl
@[simp] theorem eraseFlash_fuses (a n : Nat) : (eraseFlash s a n).fuses = s.fuses := rfl

@[simp] theorem writeBootBlock_fuses (preferred : Nat) (trial : Bool) :
    (writeBootBlock s preferred trial).fuses = s.fuses := rfl

@[simp] theorem runSlot_fuses (slot reason : Nat) : (runSlot s slot reason).fuses = s.fuses := by
  simp -implicitDefEqProofs [runSlot]

@[simp] theorem bootRom_fuses : (bootRom s).fuses = s.fuses := by simp [bootRom]
@[simp] theorem programSlot_fuses (o : Nat) (b : Bytes) : (programSlot s o b).1.fuses = s.fuses := rfl
@[simp] theorem takeChunk_fuses (b : Bytes) : (takeChunk s b).fuses = s.fuses := rfl

@[simp] theorem programImage_fuses : (programImage s).1.fuses = s.fuses := by
  simp only [programImage]
  (repeat' split) <;> simp

@[simp] theorem verifyInactive_fuses : (verifyInactive s).1.fuses = s.fuses := by simp [verifyInactive]
@[simp] theorem trialInactive_fuses : (trialInactive s).1.fuses = s.fuses := rfl
@[simp] theorem commitActive_fuses : (commitActive s).1.fuses = s.fuses := by simp [commitActive]
@[simp] theorem eraseInactive_fuses : (eraseInactive s).1.fuses = s.fuses := rfl

/-! Dynamic bales. -/

@[simp] theorem sendAckOnly_fuses (src : Nat) : (sendAckOnly s src).fuses = s.fuses := by
  simp only [sendAckOnly]
  (repeat' split) <;> simp only [routeBale_fuses, setWindow_fuses]

@[simp] theorem writePageBale_fuses (g source tag address : Nat) (b : Bytes) :
    (writePageBale s g source tag address b).fuses = s.fuses := by
  simp only [writePageBale, ite_fuses, ite_self, refuseTransfer_fuses, odAdd_fuses, setEngine_fuses, noteDynamicLines_fuses,
    extWrite_fuses]

@[simp] theorem writeCopyBale_fuses (source tag address : Nat) (b : Bytes) :
    (writeCopyBale s source tag address b).fuses = s.fuses := by
  simp [writeCopyBale]

@[simp] theorem copyBale_fuses (tag : Nat) (s : State) (i : Nat) : (copyBale tag s i).fuses = s.fuses := by
  simp only [copyBale]
  (repeat' split) <;> simp

@[simp] theorem startCopy_fuses : (startCopy s).fuses = s.fuses := by simp [startCopy]
@[simp] theorem expireEpoch_fuses : (expireEpoch s).fuses = s.fuses := by simp [expireEpoch]

/-! The host interface. -/

@[simp] theorem setRecordCursor_fuses (w v : Nat) : (setRecordCursor s w v).fuses = s.fuses := rfl

@[simp] theorem takeHeaders_fuses (w q : Nat) (count : Nat) : (takeHeaders s w q count).1.fuses = s.fuses := by
  induction count generalizing q with
  | zero => rfl
  | succ n ih => simp [takeHeaders, ih]

@[simp] theorem writeLog_fuses (o : Nat) (records : List (Option Nat × Bytes)) : (writeLog s o records).fuses = s.fuses := by
  induction records generalizing s o with
  | nil => rfl
  | cons x r ih => 
    obtain ⟨src, b⟩ := x
    cases src <;> simp [writeLog, ih]

@[simp] theorem freeLog_fuses (n : Nat) (fuel : Nat) (s : State) : (freeLog n fuel s).fuses = s.fuses := by
  induction fuel generalizing s with
  | zero => rfl
  | succ n ih => simp [freeLog, ih]

@[simp] theorem recordPoint_fuses (p : IntakePoint) (q : Nat) (headers : List (BitVec 512)) :
    (recordPoint s p q headers).fuses = s.fuses := by
  simp [recordPoint]

@[simp] theorem replaySlots_fuses (w : Nat) (count : Nat) (q : Nat) (b : Bytes) :
    (replaySlots s w count q b).1.fuses = s.fuses := by
  induction count generalizing s q b with
  | zero => rfl
  | succ n ih => simp [replaySlots, ih]

@[simp] theorem diverge_fuses : (diverge s).fuses = s.fuses := by simp [diverge]

@[simp] theorem replayPoint_fuses (p : IntakePoint) : (replayPoint s p).1.fuses = s.fuses := by
  unfold replayPoint
  (repeat' split) <;> simp

@[simp] theorem firstPoint_fuses (p : IntakePoint) : (firstPoint s p).1.fuses = s.fuses := by
  simp -implicitDefEqProofs [firstPoint]

@[simp] theorem deliverList_fuses (p : IntakePoint) (r : IntakeRec) : (deliverList s p r).fuses = s.fuses := by simp [deliverList]

@[simp] theorem servePoint_fuses (p : IntakePoint) : (servePoint s p).fuses = s.fuses := by
  simp only [servePoint]
  (repeat' split) <;> simp

@[simp] theorem setLogMode_fuses (mode : Nat) : (setLogMode s mode).fuses = s.fuses := by simp [setLogMode]
@[simp] theorem hostWriteLine_fuses (x : Nat × Bytes) : (hostWriteLine s x).fuses = s.fuses := by simp [hostWriteLine]
@[simp] theorem bar0Write_fuses (o : Nat) (b : Bytes) : (bar0Write s o b).fuses = s.fuses := by simp [bar0Write]
@[simp] theorem bar0Read_fuses (o n : Nat) : (bar0Read s o n).fuses = s.fuses := by simp [bar0Read]

@[simp] theorem serveHostRead_fuses (w : HostWindow) (a n : Nat) : (serveHostRead s w a n).fuses = s.fuses := by
  simp only [serveHostRead]
  (repeat' split) <;> simp

@[simp] theorem serveAccess_fuses (access : MemAccess) : (serveAccess s access).fuses = s.fuses := by
  unfold serveAccess
  split <;> simp

@[simp] theorem takeAccess_fuses (x : MemAccess) : (takeAccess s x).fuses = s.fuses := by simp [takeAccess]
@[simp] theorem serveWaiting_fuses : (serveWaiting s).fuses = s.fuses := by simp [serveWaiting]

@[simp] theorem hostReadMemory_fuses (w : HostWindow) (o n : Nat) : (hostReadMemory s w o n).fuses = s.fuses := by
  unfold hostReadMemory
  split <;> simp

@[simp] theorem resetHostPort_fuses : (resetHostPort s).fuses = s.fuses := by simp -implicitDefEqProofs [resetHostPort]
@[simp] theorem untrainHost_fuses : (untrainHost s).fuses = s.fuses := by simp [untrainHost]

/-! Route time. -/

@[simp] theorem setDiscipline_fuses (st : Nat) : (setDiscipline s st).fuses = s.fuses := rfl
@[simp] theorem disciplineLoop_fuses (e moff : Int) : (disciplineLoop s e moff).fuses = s.fuses := by simp [disciplineLoop]
@[simp] theorem becomeMaster_fuses : (becomeMaster s).fuses = s.fuses := by simp [becomeMaster]
@[simp] theorem becomeLocked_fuses : (becomeLocked s).fuses = s.fuses := by simp [becomeLocked]
@[simp] theorem enterHoldover_fuses : (enterHoldover s).fuses = s.fuses := rfl
@[simp] theorem parentChange_fuses : (parentChange s).fuses = s.fuses := by simp [parentChange]
@[simp] theorem checkBounds_fuses : (checkBounds s).fuses = s.fuses := by simp [checkBounds]
@[simp] theorem restartLinks_fuses : (restartLinks s).fuses = s.fuses := by simp [restartLinks]

@[simp] theorem loadCounter_fuses (l : Nat) (b : Beacon) (arrival hops : Nat) :
    (loadCounter s l b arrival hops).fuses = s.fuses := by
  simp [loadCounter]

@[simp] theorem useBeacon_fuses (l : Nat) (b : Beacon) (arrival : Nat) (e : Int) :
    (useBeacon s l b arrival e).fuses = s.fuses := by
  simp [useBeacon]

@[simp] theorem takeBeacon_fuses (l beacon arrival : Nat) : (takeBeacon s l beacon arrival).fuses = s.fuses := by
  simp -implicitDefEqProofs [takeBeacon]

@[simp] theorem announceAdjust_fuses : (announceAdjust s).fuses = s.fuses := by simp [announceAdjust]
@[simp] theorem retime_fuses (fresh : Bool) : (retime s fresh).fuses = s.fuses := by simp [retime]

/-! Observation. -/

@[simp] theorem acknowledgeSamples_fuses (v : Nat) : (acknowledgeSamples s v).fuses = s.fuses := by simp [acknowledgeSamples]
@[simp] theorem armTally_fuses : (armTally s).fuses = s.fuses := rfl
@[simp] theorem disarmTally_fuses : (disarmTally s).fuses = s.fuses := rfl
@[simp] theorem latchTally_fuses (y : Tally) (t : Nat) : (latchTally s y t).fuses = s.fuses := by simp [latchTally]

/-! Power. -/

@[simp] theorem failInterfaces_fuses (l : List Nat) : (failInterfaces s l).fuses = s.fuses := by
  simp only [failInterfaces]
  (repeat' split) <;> simp -implicitDefEqProofs

@[simp] theorem converterFault_fuses (k : Nat) : (converterFault s k).fuses = s.fuses := by simp [converterFault]
@[simp] theorem takeBus_fuses : (takeBus s).fuses = s.fuses := rfl
@[simp] theorem pollConverter_fuses (k : Nat) (r : PollReading) : (pollConverter s k r).fuses = s.fuses := by simp [pollConverter]
@[simp] theorem holdDevice_fuses : (holdDevice s).fuses = s.fuses := by simp [holdDevice]
@[simp] theorem raiseThrottle_fuses : (raiseThrottle s).fuses = s.fuses := rfl
@[simp] theorem tripRegion_fuses (r : Nat) : (tripRegion s r).fuses = s.fuses := by simp [tripRegion]

@[simp] theorem compareNeighbours_fuses (r : Nat) (old : Option Int) (s : State) (q : Nat) :
    (compareNeighbours r old s q).fuses = s.fuses := by
  simp [compareNeighbours]

@[simp] theorem compareTrip_fuses (r : Nat) (t : Int) : (compareTrip s r t).fuses = s.fuses := by simp [compareTrip]
@[simp] theorem enterSample_fuses (mw : Nat) : (enterSample s mw).fuses = s.fuses := rfl
@[simp] theorem checkPower_fuses : (checkPower s).fuses = s.fuses := by simp [checkPower]
@[simp] theorem regulatorFault_fuses (r : Nat) : (regulatorFault s r).fuses = s.fuses := by simp [regulatorFault]

/-! Package and start-up. -/

@[simp] theorem resetPart_fuses (pwrgdFell : Bool) : (resetPart s pwrgdFell).fuses = s.fuses := rfl

@[simp] theorem settleRegions_fuses (l : List Nat) : (settleRegions s l).fuses = s.fuses := by
  simp -implicitDefEqProofs [settleRegions]

@[simp] theorem enterCalibrating_fuses : (enterCalibrating s).fuses = s.fuses := by
  simp -implicitDefEqProofs [enterCalibrating, -List.foldl_reverse]

@[simp] theorem lightCores_fuses : (lightCores s).fuses = s.fuses := rfl

@[simp] theorem endReset_fuses (coord : BitVec 20) (recovery testEn : Bool) :
    (endReset s coord recovery testEn).fuses = s.fuses := by
  simp -implicitDefEqProofs [endReset]

@[simp] theorem noteConverters_fuses (failed : List Nat) (good : Bool) (s : State) (g : List Nat) :
    (noteConverters failed good s g).fuses = s.fuses := by
  simp -implicitDefEqProofs [noteConverters]

@[simp] theorem raiseGroup_fuses (failed : List Nat) (s : State) (g : List Nat) : (raiseGroup failed s g).fuses = s.fuses := by
  simp [raiseGroup]

@[simp] theorem noteWindows_fuses : (noteWindows s).fuses = s.fuses := by simp -implicitDefEqProofs [noteWindows]

@[simp] theorem initialise_fuses (i capacity usable : Nat) : (initialise s i capacity usable).fuses = s.fuses := by
  simp [initialise]

@[simp] theorem checkMismatch_fuses (portDie : Nat) : (checkMismatch s portDie).fuses = s.fuses := by
  simp -implicitDefEqProofs [checkMismatch]

@[simp] theorem calibrateRows_fuses (failed : List Nat) : (calibrateRows s failed).fuses = s.fuses := by
  unfold calibrateRows
  (repeat' split) <;> simp -implicitDefEqProofs

@[simp] theorem testCores_fuses (failed : List Nat) : (testCores s failed).fuses = s.fuses := by
  simp -implicitDefEqProofs [testCores]

@[simp] theorem surveyStarts_fuses : (surveyStarts s).fuses = s.fuses := by simp [surveyStarts]

@[simp] theorem stepEffect_fuses (c : CalStep) (failed : List Nat) : (stepEffect s c failed).fuses = s.fuses := by
  unfold stepEffect
  (repeat' split) <;> simp -implicitDefEqProofs

@[simp] theorem resetPlanDie_fuses (d : Nat) : (resetPlanDie s d).fuses = s.fuses := by simp -implicitDefEqProofs [resetPlanDie]
@[simp] theorem stopLink_fuses (l : Nat) : (stopLink s l).fuses = s.fuses := by simp [stopLink]
@[simp] theorem resetPortDie_fuses (d : Nat) : (resetPortDie s d).fuses = s.fuses := by simp -implicitDefEqProofs [resetPortDie]
@[simp] theorem loseLock_fuses (d : Nat) : (loseLock s d).fuses = s.fuses := by simp [loseLock]

@[simp] theorem readyDie_fuses (d : Nat) (failed : List Nat) : (readyDie s d failed).fuses = s.fuses := by
  unfold readyDie
  (repeat' split) <;> simp -implicitDefEqProofs

@[simp] theorem releaseBus_fuses : (releaseBus s).fuses = s.fuses := rfl

/-! Checks. -/

@[simp] theorem trial_fuses (slot : Nat) (l : Leg) : (trial s slot l).fuses = s.fuses := by simp -implicitDefEqProofs [trial]

/-! The loader. -/

@[simp] theorem endLoad_fuses (status detail : Nat) : (endLoad s status detail).fuses = s.fuses := rfl

@[simp] theorem load_fuses : (load s).fuses = s.fuses := by
  simp only [load]
  (repeat' split) <;> simp

@[simp] theorem setGreen_fuses (g : List GreenRegion) : (setGreen s g).fuses = s.fuses := rfl
@[simp] theorem setShares_fuses (l : Leg) : (setShares s l).fuses = s.fuses := by simp -implicitDefEqProofs [setShares]
@[simp] theorem showWaystations_fuses : (showWaystations s).fuses = s.fuses := by simp -implicitDefEqProofs [showWaystations]

@[simp] theorem showSlot_fuses (slot : Nat) (l : Leg) : (showSlot s slot l).fuses = s.fuses := by
  simp -implicitDefEqProofs [showSlot]

@[simp] theorem installLeg_fuses (slot : Nat) (l : Leg) : (installLeg s slot l).fuses = s.fuses := by simp [installLeg]

@[simp] theorem loadDone_fuses : (loadDone s).fuses = s.fuses := by
  unfold loadDone
  split <;> simp -implicitDefEqProofs

@[simp] theorem clearSlot_fuses (slot : Nat) : (clearSlot s slot).fuses = s.fuses := by simp -implicitDefEqProofs [clearSlot]
@[simp] theorem unload_fuses : (unload s).fuses = s.fuses := by simp -implicitDefEqProofs [unload]

/-! Stages. -/

@[simp] theorem idleCore_fuses (n : Nat) : (idleCore s n).fuses = s.fuses := rfl
@[simp] theorem startCore_fuses (i : Nat) (s : State) (n : Nat) : (startCore i s n).fuses = s.fuses := by simp [startCore]
@[simp] theorem startStageRows_fuses : (startStageRows s).fuses = s.fuses := by simp -implicitDefEqProofs [startStageRows]
@[simp] theorem clearFabric_fuses : (clearFabric s).fuses = s.fuses := by simp -implicitDefEqProofs [clearFabric]
@[simp] theorem clearInboxes_fuses : (clearInboxes s).fuses = s.fuses := by simp [clearInboxes]
@[simp] theorem clearLateness_fuses : (clearLateness s).fuses = s.fuses := by simp -implicitDefEqProofs [clearLateness]
@[simp] theorem missStage_fuses : (missStage s).fuses = s.fuses := by simp [missStage]
@[simp] theorem beginStage_fuses : (beginStage s).fuses = s.fuses := by simp -implicitDefEqProofs [beginStage]

@[simp] theorem noteMargin_fuses (t0 : Nat) : (noteMargin s t0).fuses = s.fuses := by
  unfold noteMargin
  (repeat' split) <;> simp

@[simp] theorem beginRest_fuses : (beginRest s).fuses = s.fuses := by simp -implicitDefEqProofs [beginRest]

/-! Votes. -/

@[simp] theorem enqueueVote_fuses (l : Nat) (dst : Nat) (src : Nat) (payload : Bytes) :
    (enqueueVote s l dst src payload).fuses = s.fuses := by
  simp [enqueueVote]

@[simp] theorem sendVote_fuses (a k : Nat) (s : State) (q : Nat) : (sendVote a k s q).fuses = s.fuses := by
  unfold sendVote
  (repeat' split) <;> simp

@[simp] theorem sendPhase_fuses (k : Nat) : (sendPhase s k).fuses = s.fuses := by
  unfold sendPhase
  split <;> simp

@[simp] theorem proceedVote_fuses (fuel : Nat) : (proceedVote s fuel).fuses = s.fuses := by
  induction fuel generalizing s with
  | zero => rfl
  | succ n ih =>
    simp only [proceedVote]
    split <;> simp [ih]

@[simp] theorem openVote_fuses (own : Vote) : (openVote s own).fuses = s.fuses := by simp [openVote]

@[simp] theorem showStrikes_fuses (kind unit : Nat) (count : Nat) : (showStrikes s kind unit count).fuses = s.fuses := by
  simp [showStrikes]

@[simp] theorem decideStrikes_fuses : (decideStrikes s).fuses = s.fuses := by simp [decideStrikes]

@[simp] theorem takePermanent_fuses : (takePermanent s).fuses = s.fuses := by
  simp only [takePermanent]
  (repeat' split) <;> simp

@[simp] theorem takeLostData_fuses : (takeLostData s).fuses = s.fuses := by simp -implicitDefEqProofs [takeLostData]
@[simp] theorem takeUnfit_fuses : (takeUnfit s).fuses = s.fuses := by simp [takeUnfit]
@[simp] theorem takeCapacity_fuses : (takeCapacity s).fuses = s.fuses := by simp -implicitDefEqProofs [takeCapacity]

@[simp] theorem takeStepCause_fuses : (takeStepCause s).fuses = s.fuses := by
  unfold takeStepCause
  split <;> simp

@[simp] theorem takeStopRequests_fuses : (takeStopRequests s).fuses = s.fuses := by simp [takeStopRequests]

@[simp] theorem askExtensions_fuses : (askExtensions s).fuses = s.fuses := by
  simp only [askExtensions]
  (repeat' split) <;> simp

@[simp] theorem latchPosted_fuses : (latchPosted s).fuses = s.fuses := rfl
@[simp] theorem clearVoted_fuses : (clearVoted s).fuses = s.fuses := rfl
@[simp] theorem formVote_fuses : (formVote s).fuses = s.fuses := by simp [formVote]

@[simp] theorem enterVote_fuses (m : VoteMsg) (coord : Nat) : (enterVote s m coord).fuses = s.fuses := by
  unfold enterVote
  split <;> simp

@[simp] theorem relayVote_fuses (source : Nat) (payload : Bytes) (final : Nat) :
    (relayVote s source payload final).fuses = s.fuses := by
  unfold relayVote
  (repeat' split) <;> simp

@[simp] theorem followFrom_fuses (link : Nat) (m : VoteMsg) : (followFrom s link m).fuses = s.fuses := rfl

@[simp] theorem takeVote_fuses (link source : Nat) (payload : Bytes) : (takeVote s link source payload).fuses = s.fuses := by
  unfold takeVote
  split <;> simp

@[simp] theorem missVotes_fuses : (missVotes s).fuses = s.fuses := by
  simp only [missVotes]
  (repeat' split) <;> simp

@[simp] theorem resendRecords_fuses : (resendRecords s).fuses = s.fuses := by simp [resendRecords]

/-! Starting a leg. -/

@[simp] theorem sendStart_fuses (dst type : Nat) (m : StartMsg) : (sendStart s dst type m).fuses = s.fuses := by simp [sendStart]
@[simp] theorem epochZero_fuses (set : List (BitVec 32)) : (epochZero s set).fuses = s.fuses := rfl
@[simp] theorem resetCursors_fuses : (resetCursors s).fuses = s.fuses := by simp [resetCursors]

@[simp] theorem prepareSteps_fuses : (prepareSteps s).fuses = s.fuses := by
  unfold prepareSteps
  split <;> simp

@[simp] theorem prepareLeg_fuses (m : StartMsg) : (prepareLeg s m).fuses = s.fuses := by
  simp only [prepareLeg]
  (repeat' split) <;> simp

@[simp] theorem discardStart_fuses : (discardStart s).fuses = s.fuses := by simp [discardStart]

@[simp] theorem discardKept_fuses : (discardKept s).fuses = s.fuses := by
  unfold discardKept
  split <;> simp

@[simp] theorem armStage_fuses (m : StartMsg) : (armStage s m).fuses = s.fuses := by simp [armStage]
@[simp] theorem takeGo_fuses (m : StartMsg) : (takeGo s m).fuses = s.fuses := by simp [takeGo]

@[simp] theorem sendChildren_fuses (children : List Nat) (type : Nat) (m : StartMsg) :
    (sendChildren s children type m).fuses = s.fuses := by
  simp [sendChildren]

@[simp] theorem endRounds_fuses (m : StartMsg) (status failing : Nat) : (endRounds s m status failing).fuses = s.fuses := by
  simp -implicitDefEqProofs [endRounds]

@[simp] theorem answerStart_fuses : (answerStart s).fuses = s.fuses := by
  simp only [answerStart]
  (repeat' split) <;> simp

@[simp] theorem actPrepare_fuses (parent : Option Nat) (m : StartMsg) : (actPrepare s parent m).fuses = s.fuses := by
  simp [actPrepare]

@[simp] theorem takePrepare_fuses (source : Nat) (m : StartMsg) : (takePrepare s source m).fuses = s.fuses := by
  simp [takePrepare]

@[simp] theorem takeStartAck_fuses (source : Nat) (m : StartMsg) : (takeStartAck s source m).fuses = s.fuses := by
  simp only [takeStartAck]
  (repeat' split) <;> simp

@[simp] theorem receiveGo_fuses (m : StartMsg) : (receiveGo s m).fuses = s.fuses := by
  unfold receiveGo
  (repeat' split) <;> simp

@[simp] theorem receiveAbort_fuses (m : StartMsg) : (receiveAbort s m).fuses = s.fuses := by
  unfold receiveAbort
  (repeat' split) <;> simp

@[simp] theorem takeStartMessage_fuses (source : Nat) (b : Bytes) : (takeStartMessage s source b).fuses = s.fuses := by
  unfold takeStartMessage
  (repeat' split) <;> simp

@[simp] theorem startJob_fuses : (startJob s).fuses = s.fuses := by
  simp only [startJob]
  (repeat' split) <;> simp

@[simp] theorem showAddress_fuses : (showAddress s).fuses = s.fuses := rfl

/-! The dictionary. -/

@[simp] theorem acknowledgeRecords_fuses (v : Nat) : (acknowledgeRecords s v).fuses = s.fuses := rfl
@[simp] theorem reshapeLink_fuses (l : Nat) : (reshapeLink s l).fuses = s.fuses := by simp [reshapeLink]

@[simp] theorem takeShape_fuses (begun changed : Bool) (id : Nat) : (takeShape s begun changed id).fuses = s.fuses := by
  simp [takeShape]

@[simp] theorem postWrite_fuses (id v : Nat) (waits : Bool) : (postWrite s id v waits).fuses = s.fuses := by simp [postWrite]
@[simp] theorem bytesEffect_fuses (id : Nat) (b : Bytes) : (bytesEffect s id b).fuses = s.fuses := by simp [bytesEffect]
@[simp] theorem refusedEffect_fuses (id st : Nat) : (refusedEffect s id st).fuses = s.fuses := by simp [refusedEffect]

@[simp] theorem journalRefused_fuses (rq : Requester) (op id : Nat) (b : Bytes) :
    (journalRefused s rq op id b).fuses = s.fuses := by
  simp [journalRefused]

@[simp] theorem fillWindow_fuses (b : Bytes) : (fillWindow s b).fuses = s.fuses := rfl
@[simp] theorem endWindow_fuses (st : Nat) : (endWindow s st).fuses = s.fuses := by simp [endWindow]

@[simp] theorem startTunnel_fuses (pdu : Bytes) (target : Nat) (back : Option (Bool × BitVec 48)) (vlan : Bytes) :
    (startTunnel s pdu target back vlan).fuses = s.fuses := by
  simp -implicitDefEqProofs [startTunnel]

@[simp] theorem windowTunnel_fuses : (windowTunnel s).fuses = s.fuses := by simp [windowTunnel]

/-! Matrix operations. -/

@[simp] theorem nextMatrix_fuses (n : Nat) : (nextMatrix s n).fuses = s.fuses := by
  simp only [nextMatrix]
  (repeat' split) <;> simp

@[simp] theorem completeMatrix_fuses (n : Nat) : (completeMatrix s n).fuses = s.fuses := rfl

@[simp] theorem writeLedgers_fuses (n : Nat) (d : DrainOp) (a : Nat) : (writeLedgers s n d a).fuses = s.fuses := by
  unfold writeLedgers
  split <;> simp

@[simp] theorem writeRow_fuses (n : Nat) (d : DrainOp) : (writeRow s n d).fuses = s.fuses := by simp [writeRow]

@[simp] theorem drainRow_fuses (n : Nat) : (drainRow s n).fuses = s.fuses := by
  simp only [drainRow]
  (repeat' split) <;> simp

/-! Requests. -/

@[simp] theorem answer_fuses (rq : Requester) (vlan : Bytes) (transaction : Nat) (r : Reply) :
    (answer s rq vlan transaction r).fuses = s.fuses := by
  unfold answer
  split <;> simp

@[simp] theorem serveSegmentRead_fuses (rq : Requester) (transaction : BitVec 32) (id k : Nat) :
    (serveSegmentRead s rq transaction id k).1.fuses = s.fuses := by
  simp only [serveSegmentRead]
  (repeat' split) <;> simp

@[simp] theorem closeSegment_fuses : (closeSegment s).fuses = s.fuses := rfl

@[simp] theorem expireSegment_fuses : (expireSegment s).fuses = s.fuses := by
  unfold expireSegment
  split <;> simp

@[simp] theorem takeTunnelReply_fuses (source : Nat) (p : GdpFields) (pdu : Bytes) :
    (takeTunnelReply s source p pdu).fuses = s.fuses := by
  unfold takeTunnelReply
  (repeat' split) <;> simp

@[simp] theorem forwardFrame_fuses (port : Bool) (frame : Bytes) (at' hop : Nat) :
    (forwardFrame s port frame at' hop).fuses = s.fuses := by
  simp [forwardFrame]

/-! Receiving. -/

@[simp] theorem takeControl_fuses (l slot h arrival : Nat) : (takeControl s l slot h arrival).fuses = s.fuses := by
  unfold takeControl
  split <;> simp

/-! A tick. -/

@[simp] theorem countTick_fuses : (countTick s).fuses = s.fuses := by
  simp only [countTick]
  (repeat' split) <;> simp

@[simp] theorem cycleTick_fuses : (cycleTick s).fuses = s.fuses := rfl
@[simp] theorem rateTick_fuses : (rateTick s).fuses = s.fuses := rfl
@[simp] theorem coreTick_fuses (n : Nat) : (coreTick s n).fuses = s.fuses := by simp [coreTick]
@[simp] theorem rowTick_fuses (row : Nat) : (rowTick s row).fuses = s.fuses := by simp [rowTick]
@[simp] theorem blockTick_fuses : (blockTick s).fuses = s.fuses := by simp [blockTick]

@[simp] theorem tick_fuses : (tick s).fuses = s.fuses := by simp -implicitDefEqProofs [tick]

end Sys2Proof.Machine
end

section
/-! PROOFS. The fuses stay and the firmware floor never falls (R7, R382, R396): a command carries the relation `Fuses.Rise` from the
fuses of a state to those of the next. Only the firmware command of R398 that raises the floor moves them, and it is reached by
the writes of the dictionary alone: over the ring, the fabric, BAR2 and the commands that are one write. -/

namespace Sys2Proof.Machine

/-- The fuses g are the fuses f, but for a firmware floor that may have risen (R7, R382, R396). -/
def Fuses.Rise (f g : Fuses) : Prop := g = { f with floor := g.floor } ∧ f.floor.toNat ≤ g.floor.toNat

/-- `FusesKept` of a state says it of the state's fuses. -/
theorem fusesKept_iff (f : Fuses) (s : State) : FusesKept f s ↔ f.Rise s.fuses :=
  ⟨fun h => ⟨h.same, h.floor⟩, fun h => ⟨h.1, h.2⟩⟩

/-- Where the outcome is a next state, its fuses have only risen from f. -/
def NextRises (f : Fuses) (o : Host.Outcome State Fault Refusal) : Prop := ∀ t, o = .next t → f.Rise t.fuses

@[simp] theorem nextRises_next (f : Fuses) (t : State) : NextRises f (.next t) ↔ f.Rise t.fuses :=
  ⟨fun h => h t rfl, fun h _ e => Host.Outcome.next.inj e ▸ h⟩

/-- Little-endian bytes give a number below their count's power of 256. -/
theorem leNat_lt (b : Bytes) : leNat b < 256 ^ b.length := by
  induction b with
  | nil => simp [leNat]
  | cons x r ih =>
    have hx := x.isLt
    simp only [leNat, List.length_cons, Nat.pow_succ]
    omega

theorem field_lt (b : Bytes) (i n : Nat) : field b i n < 256 ^ n := by
  simpa [field] using leNat_lt (slice b i n)

section
variable {f : Fuses} {s : State}

theorem nextRises_of_fuses {t : State} (h : f.Rise s.fuses) (e : t.fuses = s.fuses) : NextRises f (.next t) := by
  simpa [e] using h

@[simp] theorem rise_ite {c : Prop} [Decidable c] {g g' : Fuses} :
    f.Rise (if c then g else g') ↔ if c then f.Rise g else f.Rise g' :=
  iff_of_eq (apply_ite ..)

variable (h : f.Rise s.fuses)
include h

theorem raiseFloor_rise : f.Rise (raiseFloor s).1.fuses := by
  unfold raiseFloor
  split
  · exact h
  · obtain ⟨hf, hle⟩ := h
    have hv : field (slotHeader s (odGet s (od 0x5200 1))) 5 1 < 256 := field_lt _ 5 1
    have hmax := s.fuses.floor.isLt
    refine ⟨by rw [hf], Nat.le_trans hle ?_⟩
    rw [BitVec.toNat_ofNat, Nat.mod_eq_of_lt (Nat.max_lt.mpr ⟨hmax, hv⟩)]
    exact Nat.le_max_left _ _

@[simp] theorem firmwareCommand_rise (c : Nat) : f.Rise (firmwareCommand s c).fuses := by
  simp only [firmwareCommand, odSet_fuses]
  split
  case h_5 => exact raiseFloor_rise h
  all_goals simpa using h

@[simp] theorem scalarEffect_rise (id v st : Nat) : f.Rise (scalarEffect s id v st).fuses := by
  simp [scalarEffect, h]

@[simp] theorem serveWrite_rise (rq : Requester) (id : Nat) (b : Bytes) (long : Bool) (early : Option Nat) (asked : Bytes) :
    f.Rise (serveWrite s rq id b long early asked).1.fuses := by
  simp -implicitDefEqProofs [serveWrite, h]

@[simp] theorem windowCommand_rise (rq : Requester) (v : Nat) : f.Rise (windowCommand s rq v).fuses := by
  simp only [windowCommand]
  split
  · split <;> simpa using h
  · simp -implicitDefEqProofs [h]
  · simpa using h

@[simp] theorem pathWrite_rise (rq : Requester) (id : Nat) (b : Bytes) (long : Bool) (early : Option Nat) (asked : Bytes) :
    f.Rise (pathWrite s rq id b long early asked).1.fuses := by
  simp [pathWrite, h]

@[simp] theorem ownWrite_rise (rq : Requester) (id : Nat) (b : Bytes) (long : Bool) : f.Rise (ownWrite s rq id b long).fuses := by
  simp [ownWrite, h]

@[simp] theorem serveSegmentWrite_rise (rq : Requester) (tr : BitVec 32) (id k : Nat) (last : Bool) (b : Bytes) :
    f.Rise (serveSegmentWrite s rq tr id k last b).1.fuses := by
  simp only [serveSegmentWrite, refuseSegment]
  split <;> simp [h]

@[simp] theorem serveGdp_rise (rq : Requester) (vlan : Bytes) (op tr id segment : Nat) (last : Bool) (data : Bytes) :
    f.Rise (serveGdp s rq vlan op tr id segment last data).fuses := by
  simp only [serveGdp]
  split <;> simp [h]

@[simp] theorem gdpCommand_rise (rq : Requester) (op : Nat) (tr : BitVec 32) (id segment : Nat) (last : Bool) (data : Bytes) :
    f.Rise (gdpCommand s rq op tr id segment last data).fuses := by
  simp [gdpCommand, h]

@[simp] theorem takePdu_rise (source : Nat) (pdu : Bytes) : f.Rise (takePdu s source pdu).fuses := by
  simp only [takePdu]
  split <;> simp [h]

@[simp] theorem consumeFrame_rise (port : Bool) (station : Nat) (vlan : Bytes) (p : GdpFields) :
    f.Rise (consumeFrame s port station vlan p).fuses := by
  simp -implicitDefEqProofs [consumeFrame, h]

@[simp] theorem takeFrame_rise (port : Bool) (frame : Bytes) : f.Rise (takeFrame s port frame).fuses := by
  simp only [takeFrame]
  split
  all_goals
    split
    · simpa using h
    · split
      · simpa using h
      · split <;> simp -implicitDefEqProofs [h]

@[simp] theorem bar2Write_rise (rq : Requester) (offset : Nat) (b : Bytes) : f.Rise (bar2Write s rq offset b).fuses := by
  simp only [bar2Write]
  split
  · split
    · simpa using h
    · split <;> simp [h]
  · split
    · simpa using h
    · split <;> simp [h]

@[simp] theorem takeContents_rise (l slot arrival : Nat) (bale : BitVec 1280) :
    f.Rise (takeContents s l slot arrival bale).fuses := by
  simp only [takeContents, takeKind, actByKind]
  split
  · simpa using h
  · split
    · simpa using h
    · rw [noteCopyDone_fuses]
      split <;> simp [h]

/-! The commands that are not one call of an operation. -/

theorem execRefresh_rise (iface : IfaceId) : NextRises f (execRefresh iface s) := by simp [execRefresh, h]

theorem execReReadDone_rise (iface : IfaceId) (line : BitVec 48) (check : ReadCheck) :
    NextRises f (execReReadDone iface line check s) := by
  simp only [execReReadDone, nextRises_next]
  split <;> simp [h]

theorem execPatrolScrub_rise (line : BitVec 48) (check : ReadCheck) (passSeconds : Option (BitVec 32)) :
    NextRises f (execPatrolScrub line check passSeconds s) := by
  simp only [execPatrolScrub, nextRises_next]
  (repeat' split) <;> simp [h]

theorem execScrubDetect_rise (core : CoreId) (address : BitVec 24) (passCycles : Option (BitVec 32)) :
    NextRises f (execScrubDetect core address passCycles s) := by
  simp only [execScrubDetect, nextRises_next]
  split <;> simp [h]

theorem execBankWrite_rise (core : CoreId) (bank : Bool) (target : BankTarget) (dataError : Bool) :
    NextRises f (execBankWrite core bank target dataError s) := by
  simp only [execBankWrite, nextRises_next]
  split <;> simp [h]

theorem execTrainingAttempt_rise (link : LinkId) : NextRises f (execTrainingAttempt link s) := by simp [execTrainingAttempt, h]
theorem execTrainingTimeout_rise (link : LinkId) : NextRises f (execTrainingTimeout link s) := by simp [execTrainingTimeout, h]

theorem execMeshMove_rise (row : RowId) (stop : Fin 13) (entry : MeshHop) : NextRises f (execMeshMove row stop entry s) := by
  simp [execMeshMove, h]

theorem execDieToDieMove_rise (side : Fin 6) (entry : DieHop) : NextRises f (execDieToDieMove side entry s) := by
  simp [execDieToDieMove, h]

theorem execSlotStart_rise (link : LinkId) : NextRises f (execSlotStart link s) := by simp [execSlotStart, h]

theorem execAttestationDone_rise : NextRises f (execAttestationDone s) := by
  simp only [execAttestationDone, nextRises_next]
  split <;> simp [h]

theorem execCargoCommandEnd_rise : NextRises f (execCargoCommandEnd s) := by
  simp only [execCargoCommandEnd, nextRises_next]
  split <;> simp [h]

theorem execFirmwareCommandEnd_rise : NextRises f (execFirmwareCommandEnd s) := by
  simp only [execFirmwareCommandEnd, nextRises_next]
  split <;> simp [h]

theorem execCompletion_rise (_source : BitVec 20) (tag : BitVec 24) (status : Byte) :
    NextRises f (execCompletion _source tag status s) := by
  simp [execCompletion, h]

theorem execIntakePoint_rise (point : Fin 16) : NextRises f (execIntakePoint point s) := by
  simp only [execIntakePoint, nextRises_next]
  split <;> simp [h]

theorem execLogCopyDone_rise (ws : WsId) : NextRises f (execLogCopyDone ws s) := by simp [execLogCopyDone, h]

theorem execHostWrite_rise (window : HostWindow) (offset : Nat) (payload : Bytes) :
    NextRises f (execHostWrite window offset payload s) := by
  simp only [execHostWrite, nextRises_next]
  (repeat' split) <;> simp [h]

theorem execHostRead_rise (window : HostWindow) (offset : Nat) (length : Nat) :
    NextRises f (execHostRead window offset length s) := by
  simp only [execHostRead, nextRises_next]
  (repeat' split) <;> simp [h]

theorem execHostPortReset_rise (kind : HostReset) : NextRises f (execHostPortReset kind s) := by
  simp only [execHostPortReset, nextRises_next]
  (repeat' split) <;> simp [h]

theorem execPerst_rise (level : Bool) : NextRises f (execPerst level s) := by simp [execPerst, h]

theorem execHostPortTrained_rise (cxl : Bool) (width rate : BitVec 8) : NextRises f (execHostPortTrained cxl width rate s) := by
  simp [execHostPortTrained, h]

theorem execInterruptCoalesceEnd_rise (source : Fin 54) : NextRises f (execInterruptCoalesceEnd source s) := by
  simp [execInterruptCoalesceEnd, h]

theorem execParentBeaconTimeout_rise : NextRises f (execParentBeaconTimeout s) := by simp [execParentBeaconTimeout, h]
theorem execHoldoverExpiry_rise : NextRises f (execHoldoverExpiry s) := by simp [execHoldoverExpiry, h]

theorem execCounterOverflow_rise (counter : Fin 2528) : NextRises f (execCounterOverflow counter s) := by
  simp [execCounterOverflow, h]

theorem execOverflowInterruptTimer_rise : NextRises f (execOverflowInterruptTimer s) := by simp [execOverflowInterruptTimer, h]

theorem execTallyTrigger_rise : NextRises f (execTallyTrigger s) := by
  simp only [execTallyTrigger, nextRises_next]
  (repeat' split) <;> simp [h]

theorem execPmbusAlert_rise (bus : Bool) (readings : List PollReading) : NextRises f (execPmbusAlert bus readings s) := by
  simp [execPmbusAlert, h]

theorem execThermalTrip_rise (row : RowId) : NextRises f (execThermalTrip row s) := by simp [execThermalTrip, h]
theorem execThermalHold_rise : NextRises f (execThermalHold s) := by simp [execThermalHold, h]
theorem execThermalShutdown_rise : NextRises f (execThermalShutdown s) := by simp [execThermalShutdown, h]

theorem execSensorSample_rise (region : RegionId) (sensor0 sensor1 : Int) :
    NextRises f (execSensorSample region sensor0 sensor1 s) := by
  simp [execSensorSample, h]

theorem execPowerSample_rise (milliwatts : Nat) : NextRises f (execPowerSample milliwatts s) := by simp [execPowerSample, h]
theorem execThrottleRestore_rise : NextRises f (execThrottleRestore s) := by simp [execThrottleRestore, h]

theorem execMonitorSample_rise (region : RegionId) (monitor : Fin 6) (taps : BitVec 16) :
    NextRises f (execMonitorSample region monitor taps s) := by
  simp [execMonitorSample, h]

theorem execDividerSwitch_rise : NextRises f (execDividerSwitch s) := by simp [execDividerSwitch, h]
theorem execRegulatorFault_rise (region : RegionId) : NextRises f (execRegulatorFault region s) := by simp [execRegulatorFault, h]

theorem execResetEnd_rise (coord : BitVec 20) (recovery testEn : Bool) :
    NextRises f (execResetEnd coord recovery testEn s) := by
  simp [execResetEnd, h]

theorem execCalibrationStepDone_rise (step : CalStep) (failed : List Nat) :
    NextRises f (execCalibrationStepDone step failed s) := by
  simp [execCalibrationStepDone, h]

theorem execRootPllLockLoss_rise (die : DieId) : NextRises f (execRootPllLockLoss die s) := by simp [execRootPllLockLoss, h]
theorem execDieReady_rise (die : DieReady) : NextRises f (execDieReady die s) := by simp [execDieReady, h]

theorem execStewardWatchdog_rise (restarts : Bool) : NextRises f (execStewardWatchdog restarts s) := by
  simp [execStewardWatchdog, h]

theorem execRingPortLinkChange_rise (port : Bool) (mode : Fin 3) : NextRises f (execRingPortLinkChange port mode s) := by
  simp [execRingPortLinkChange, h]

theorem execStageStart_rise : NextRises f (execStageStart s) := by simp [execStageStart, h]
theorem execRestStart_rise : NextRises f (execRestStart s) := by simp [execRestStart, h]
theorem execAckDeadline_rise : NextRises f (execAckDeadline s) := by simp [execAckDeadline, h]
theorem execPrepareDiscard_rise : NextRises f (execPrepareDiscard s) := by simp [execPrepareDiscard, h]

theorem execSubstitution_rise (rq : Requester) (addresses : Bytes) : NextRises f (execSubstitution rq addresses s) := by
  simp [execSubstitution, h]

theorem execShapeWrite_rise (rq : Requester) (index : BitVec 16) (sub : BitVec 8) (value : Bytes) :
    NextRises f (execShapeWrite rq index sub value s) := by
  simp [execShapeWrite, h]

theorem execSegmentTimeout_rise (rq : Requester) (transaction : BitVec 32) :
    NextRises f (execSegmentTimeout rq transaction s) := by
  simp only [execSegmentTimeout, nextRises_next]
  split <;> simp [h]

theorem execTunnelTimeout_rise (transaction : BitVec 32) : NextRises f (execTunnelTimeout transaction s) := by
  simp only [execTunnelTimeout, nextRises_next]
  split <;> simp [h]

theorem execFrameReceive_rise (port : Bool) (frame : Bytes) (fcsGood : Bool) :
    NextRises f (execFrameReceive port frame fcsGood s) := by
  simp [execFrameReceive, h]

theorem execBar2Access_rise (requester : BitVec 16) (offset : Nat) (length : Nat) (written : Option Bytes) :
    NextRises f (execBar2Access requester offset length written s) := by
  simp only [execBar2Access, nextRises_next]
  (repeat' split) <;> simp [h]

theorem execBaleReceive_rise (link : LinkId) (seq : BitVec 12) (bale : BitVec 1280) (fec : FecReading) (arrival : BitVec 68) :
    NextRises f (execBaleReceive link seq bale fec arrival s) := by
  simp only [execBaleReceive, nextRises_next]
  split <;> simp [h]

end

variable {f : Fuses} {s : State}

/-- A command leaves the fuses, or it is a write that can raise the floor. -/
theorem exec_rise (h : f.Rise s.fuses) (i : Instr) : NextRises f (exec i s) := by
  cases i with
  | depotLineMove => exact nextRises_of_fuses h (moveDepotLine_fuses ..)
  | depotComplete => exact nextRises_of_fuses h (completeDepot_fuses ..)
  | glazeRequestArrive => exact nextRises_of_fuses h (requestArrives_fuses ..)
  | glazeAccept => exact nextRises_of_fuses h (acceptRequest_fuses ..)
  | attention | gather | ledgerReduce => exact nextRises_of_fuses h (performHeld_fuses ..)
  | pageCopy | compaction => exact nextRises_of_fuses h (dynamicStep_fuses ..)
  | bundleIssue | stallRelease | waitRelease | branchResolve | joinIssue | postBundle | dld | dst
  | acknowledgementOnly | kvPageCopyBale | hostTraffic =>
    exact nextRises_of_fuses h (by simp)
  | storeVisible => exact nextRises_of_fuses h (showStores_fuses ..)
  | outerPortGrant => exact nextRises_of_fuses h (grantOuter_fuses ..)
  | descriptorWrite => exact nextRises_of_fuses h (writeBank_fuses ..)
  | reloadDone => exact nextRises_of_fuses h (finishReload_fuses ..)
  | nakResend => exact nextRises_of_fuses h (resendNak_fuses ..)
  | replayOverdue => exact nextRises_of_fuses h (overdueReplay_fuses ..)
  | ackTimeout => exact nextRises_of_fuses h (ackTimeout_fuses ..)
  | badBaleWindowEnd => exact nextRises_of_fuses h (endBadWindow_fuses ..)
  | lossOfSignal => exact nextRises_of_fuses h (loseSignal_fuses ..)
  | holdEnd => exact nextRises_of_fuses h (endHold_fuses ..)
  | laneFailed => exact nextRises_of_fuses h (failLane_fuses ..)
  | hello => exact nextRises_of_fuses h (takeHello_fuses ..)
  | retrain => exact nextRises_of_fuses h (takeRetrain_fuses ..)
  | down => exact nextRises_of_fuses h (declareDown_fuses ..)
  | narrow => exact nextRises_of_fuses h (takeNarrow_fuses ..)
  | echo => exact nextRises_of_fuses h (takeEcho_fuses ..)
  | echoReply => exact nextRises_of_fuses h (takeEchoReply_fuses ..)
  | ready => exact nextRises_of_fuses h (takeReady_fuses ..)
  | pmdTrainingDone => exact nextRises_of_fuses h (pmdDone_fuses ..)
  | ackOnlyTimer => exact nextRises_of_fuses h (sendAckOnly_fuses ..)
  | oldEpochExpire => exact nextRises_of_fuses h (expireEpoch_fuses ..)
  | beaconReceive => exact nextRises_of_fuses h (takeBeacon_fuses ..)
  | routeAdjust => exact nextRises_of_fuses h (announceAdjust_fuses ..)
  | pmbusPoll => exact nextRises_of_fuses h (pollConverter_fuses ..)
  | regulatorSettled => exact nextRises_of_fuses h (settleRegulator_fuses ..)
  | partReset => exact nextRises_of_fuses h (resetPart_fuses ..)
  | loadDone => exact nextRises_of_fuses h (loadDone_fuses ..)
  | voteForm => exact nextRises_of_fuses h (formVote_fuses ..)
  | postVote => exact nextRises_of_fuses h (takeVote_fuses ..)
  | voteDeadline => exact nextRises_of_fuses h (missVotes_fuses ..)
  | escalationResend => exact nextRises_of_fuses h (resendRecords_fuses ..)
  | prepare => exact nextRises_of_fuses h (takePrepare_fuses ..)
  | ack => exact nextRises_of_fuses h (takeStartAck_fuses ..)
  | go => exact nextRises_of_fuses h (receiveGo_fuses ..)
  | abort => exact nextRises_of_fuses h (receiveAbort_fuses ..)
  | startCommand | stopRequest | fabricCopy | load | unload | windowRead | windowWrite | windowTunnel
  | bankSwitchRequest | arm | landRequest | balancingEnable | targetStep | retrainRequest | retireRequest
  | rotationPlanWrite | acknowledge | attestationNonce | trustedPublisherWrite | cargoOpen | cargoPagesCopy
  | cargoPagesInPlace | cargoRelease | chunk | firmwareProgram | firmwareVerify | setTrial | commit | raiseFuseFloor
  | erase | counterConfigurationWrite | sampleAcknowledge | tallyArm | tallyDisarm =>
    exact (nextRises_next f _).2 (ownWrite_rise h ..)
  | ld | ldx | st | stx | mma | drain | add | sub | and | or | xor | shl | shr | sar | mul | mov | addi | movi | shli
  | cmp | br | loop | agb | ags | csrc | cadd | crd | stg | wwb | wdp | vadd | vsub | vmul | vfma | vmin | vmax
  | vcmp | vsel | vand | vor | vxor | vshl | vshr | vsar | vexp2 | vlog2 | vrcp | vrsq | vcvt | vpack | vunpk | vred
  | vbcx | vimm | vmov =>
    exact nextRises_of_fuses h (issueSlot_fuses ..)
  | matrixEnterArray => exact nextRises_of_fuses h (nextMatrix_fuses ..)
  | matrixComplete => exact nextRises_of_fuses h (completeMatrix_fuses ..)
  | drainRowVisible => exact nextRises_of_fuses h (drainRow_fuses ..)
  | read | write | segmentRead | segmentWrite | discover => exact (nextRises_next f _).2 (gdpCommand_rise h ..)
  | dictionaryFrame => exact (nextRises_next f _).2 (takePdu_rise h ..)
  | refresh => exact execRefresh_rise h _
  | reReadDone => exact execReReadDone_rise h _ _ _
  | patrolScrub => exact execPatrolScrub_rise h _ _ _
  | scrubDetect => exact execScrubDetect_rise h _ _ _
  | bankWrite => exact execBankWrite_rise h _ _ _ _
  | trainingAttempt => exact execTrainingAttempt_rise h _
  | trainingTimeout => exact execTrainingTimeout_rise h _
  | meshMove => exact execMeshMove_rise h _ _ _
  | dieToDieMove => exact execDieToDieMove_rise h _ _
  | slotStart => exact execSlotStart_rise h _
  | attestationDone => exact execAttestationDone_rise h
  | cargoCommandEnd => exact execCargoCommandEnd_rise h
  | firmwareCommandEnd => exact execFirmwareCommandEnd_rise h
  | completion source tag status => exact execCompletion_rise h source tag status
  | intakePoint => exact execIntakePoint_rise h _
  | logCopyDone => exact execLogCopyDone_rise h _
  | hostWrite => exact execHostWrite_rise h _ _ _
  | hostRead => exact execHostRead_rise h _ _ _
  | hostPortReset => exact execHostPortReset_rise h _
  | perst => exact execPerst_rise h _
  | hostPortTrained => exact execHostPortTrained_rise h _ _ _
  | interruptCoalesceEnd => exact execInterruptCoalesceEnd_rise h _
  | parentBeaconTimeout => exact execParentBeaconTimeout_rise h
  | holdoverExpiry => exact execHoldoverExpiry_rise h
  | counterOverflow => exact execCounterOverflow_rise h _
  | overflowInterruptTimer => exact execOverflowInterruptTimer_rise h
  | tallyTrigger => exact execTallyTrigger_rise h
  | pmbusAlert => exact execPmbusAlert_rise h _ _
  | thermalTrip => exact execThermalTrip_rise h _
  | thermalHold => exact execThermalHold_rise h
  | thermalShutdown => exact execThermalShutdown_rise h
  | sensorSample => exact execSensorSample_rise h _ _ _
  | powerSample => exact execPowerSample_rise h _
  | throttleRestore => exact execThrottleRestore_rise h
  | monitorSample => exact execMonitorSample_rise h _ _ _
  | dividerSwitch => exact execDividerSwitch_rise h
  | regulatorFault => exact execRegulatorFault_rise h _
  | resetEnd => exact execResetEnd_rise h _ _ _
  | calibrationStepDone => exact execCalibrationStepDone_rise h _ _
  | rootPllLockLoss => exact execRootPllLockLoss_rise h _
  | dieReady => exact execDieReady_rise h _
  | stewardWatchdog => exact execStewardWatchdog_rise h _
  | ringPortLinkChange => exact execRingPortLinkChange_rise h _ _
  | stageStart => exact execStageStart_rise h
  | restStart => exact execRestStart_rise h
  | ackDeadline => exact execAckDeadline_rise h
  | prepareDiscard => exact execPrepareDiscard_rise h
  | substitution => exact execSubstitution_rise h _ _
  | shapeWrite => exact execShapeWrite_rise h _ _ _ _
  | segmentTimeout => exact execSegmentTimeout_rise h _ _
  | tunnelTimeout => exact execTunnelTimeout_rise h _
  | frameReceive => exact execFrameReceive_rise h _ _ _
  | bar2Access => exact execBar2Access_rise h _ _ _ _
  | baleReceive => exact execBaleReceive_rise h _ _ _ _ _

/-- Settles O58: `Fuses.Rise` from the fuses of the invariant is kept by a tick, which leaves the fuses, and by every command. -/
theorem fusesNeverFall : Obligations.FusesNeverFall := by
  unfold Obligations.FusesNeverFall
  intro f s t hs ht
  rw [fusesKept_iff] at hs ⊢
  unfold step at ht
  split at ht
  · obtain rfl := Host.Outcome.next.inj ht
    rwa [tick_fuses]
  · exact exec_rise (s := { s with pending := _ }) (by exact hs) _ t ht

end Sys2Proof.Machine
end

section
/-! PROOFS. Writes of plain objects (R12, R359, R361, R368, R372, R373): what R359's checks establish of an accepted write, the
state that an accepted write of a plain object leaves, and the commands that come to such a write. -/

namespace Sys2Proof.Machine

/-! The object table and reserved fields. -/

theorem objRow_mem {id : Nat} {r : ObjRow} (h : objRow id = some r) : r ∈ objects := List.mem_of_find?_eq_some h

theorem objects_bool_hi : ∀ r ∈ objects, r.type = .bool → r.hi ≤ 1 := by decide +kernel

/-- The bytes of a scalar type hold as many values as its bits, but for a BOOL. -/
theorem bits_of_not_bool {τ : ObjType} (hl : τ.long = false) (hb : τ ≠ .bool) : 256 ^ τ.bytes = 2 ^ τ.bits := by
  cases τ <;> simp_all [ObjType.bytes, ObjType.bits, ObjType.long]

/-- Reserved fields are dropped from a value, never added to it (R12). -/
theorem maskReserved_le (id v : Nat) : maskReserved id v ≤ v := by
  unfold maskReserved
  split
  · exact Nat.and_le_left
  · split
    · exact Nat.and_le_left
    · split
      · exact Nat.mod_le _ _
      · split
        · exact Nat.sub_le _ _
        · split
          · exact Nat.sub_le _ _
          · exact Nat.le_refl _

/-! What R359's checks establish. -/

variable {s : State} {rq : Requester} {id : Nat} {b : Bytes} {long : Bool}

/-- An object that may be written exists, and is not read-only (R359, steps 2 to 5). -/
theorem exists_row_of_accessStatus (h : accessStatus s id = 0) : ∃ r, objRow id = some r ∧ r.access ≠ .ro := by
  unfold accessStatus at h
  split at h
  · simp at h
  next r hr =>
    refine ⟨r, hr, fun hro => ?_⟩
    simp only [hro] at h
    split at h <;> simp at h

/-- A write with status 0x00 has passed R359's steps 2 to 6 and 8. -/
theorem checks_of_writeStatus (h : writeStatus s id b long none = 0) :
    accessStatus s id = 0 ∧ formOk id b long = true ∧
      ∀ r, objRow id = some r →
        (if long then bytesAllowed id b else scalarAllowed s r id (maskReserved id (leNat b))) = true := by
  simp only [writeStatus] at h
  by_cases ha : accessStatus s id = 0
  case neg => rw [if_pos ha] at h; exact absurd h ha
  rw [if_neg (not_not_intro ha)] at h
  by_cases hf : formOk id b long = true
  case neg => rw [if_pos (by simp [hf])] at h; exact absurd h (by decide)
  rw [if_neg (by simp [hf])] at h
  refine ⟨ha, hf, fun r hr => ?_⟩
  by_cases hv : (if long then bytesAllowed id b else scalarAllowed s r id (maskReserved id (leNat b))) = true
  · exact hv
  · simp only [hr] at h
    rw [if_pos (by rw [Bool.eq_false_iff.mpr hv, Bool.not_false])] at h
    exact absurd h (by decide)

theorem le_hi_of_scalarAllowed {r : ObjRow} {v : Nat} (h : scalarAllowed s r id v = true) : v ≤ r.hi := by
  simp only [scalarAllowed, Bool.and_eq_true, decide_eq_true_eq] at h
  omega

/-- The value of an accepted scalar fits the object that stores it: nothing is cut off. -/
theorem maskReserved_lt_of_accepted (h : writeStatus s id b false none = 0) :
    maskReserved id (leNat b) < 2 ^ odBits id := by
  obtain ⟨ha, hf, hv⟩ := checks_of_writeStatus h
  obtain ⟨r, hr, -⟩ := exists_row_of_accessStatus ha
  have hv := hv r hr
  simp only [formOk, hr, Bool.and_eq_true, decide_eq_true_eq, Bool.false_or] at hf
  obtain ⟨hl, hlen⟩ := hf
  simp only [odBits, hr]
  by_cases hb : r.type = .bool
  · have hi := objects_bool_hi r (objRow_mem hr) hb
    have hle : maskReserved id (leNat b) ≤ r.hi := le_hi_of_scalarAllowed hv
    rw [hb]
    exact Nat.lt_of_le_of_lt (Nat.le_trans hle hi) (by decide)
  · rw [← bits_of_not_bool hl hb, ← hlen]
    exact Nat.lt_of_le_of_lt (maskReserved_le _ _) (leNat_lt b)

/-- No write is accepted of an object that shows the most recent BAR2 write. -/
theorem not_shows_of_accessStatus (h : accessStatus s id = 0) : id ≠ od 0x1170 4 ∧ id ≠ od 0x1170 5 := by
  obtain ⟨r, hr, hro⟩ := exists_row_of_accessStatus h
  have h4 : (objRow (od 0x1170 4)).map (·.access) = some .ro := by decide +kernel
  have h5 : (objRow (od 0x1170 5)).map (·.access) = some .ro := by decide +kernel
  constructor <;> rintro rfl <;> simp_all

/-- A value that is written whole has a length that its object's layout allows (R368). -/
theorem layoutLength_of_accepted (h : writeStatus s id b true none = 0) : layoutLength id b = none := by
  obtain ⟨ha, -, hv⟩ := checks_of_writeStatus h
  obtain ⟨r, hr, -⟩ := exists_row_of_accessStatus ha
  have hv := hv r hr
  simp only [if_true, bytesAllowed, Bool.and_eq_true] at hv
  simp [layoutLength, hv.1]

/-! The state that an accepted write leaves. -/

/-- The state after an accepted write has been journaled (R376). -/
def afterJournal (s : State) (rq : Requester) (id : Nat) (b : Bytes) (long : Bool) : State :=
  addJournal s (pathCode rq.path) rq.source.toNat id 0 (journalFlags (isPostTimed id) false (longObject id)) (journalOld s id)
    (journalNew s id 0 b long)

/-- The status and the object of a write in OD 1170.04 and OD 1170.05, on the BAR2 path alone (R373). -/
def showOnBar2 (s : State) (rq : Requester) (id st : Nat) : State :=
  if rq.path = .bar2 then odSet (odSet s (od 0x1170 4) st) (od 0x1170 5) (id % 2 ^ 24) else s

theorem serveWrite_of_accepted (h : writeStatus s id b long none = 0) :
    serveWrite s rq id b long none b = (if long then bytesEffect (afterJournal s rq id b long) id b
      else scalarEffect (afterJournal s rq id b long) id (maskReserved id (leNat b)) 0, 0) := by
  simp only [serveWrite, h, afterJournal]
  cases long <;> rfl

theorem scalarEffect_of_plain (h : PlainScalar id) (s : State) (v st : Nat) : scalarEffect s id v st = odSet s id v := by
  obtain ⟨hp, ho, hs, hne⟩ := h
  simp only [List.mem_cons, not_or] at hne
  simp [scalarEffect, hp, ho, hs, hne]

theorem bytesEffect_of_plain (h : PlainBytes id) (s : State) (b : Bytes) : bytesEffect s id b = odSetBytes s id b := by
  simp only [PlainBytes, List.mem_cons, not_or] at h
  simp [bytesEffect, h]

theorem ne_windowCommand_of_plain (h : PlainScalar id) : id ≠ od 0x1170 3 := by
  obtain ⟨-, -, -, hne⟩ := h
  simp only [List.mem_cons, not_or] at hne
  obtain ⟨-, -, -, -, -, -, -, -, -, h3, -⟩ := hne
  exact h3

/-- An accepted write of a plain scalar: journaled, stored with the reserved fields at zero, and shown on the BAR2 path. -/
theorem pathWrite_of_plain (hp : PlainScalar id) (h : writeStatus s id b false none = 0) :
    pathWrite s rq id b false none b
      = (showOnBar2 (odSet (afterJournal s rq id b false) id (maskReserved id (leNat b))) rq id 0, 0) := by
  simp [pathWrite, serveWrite_of_accepted h, scalarEffect_of_plain hp, ne_windowCommand_of_plain hp, showOnBar2]

theorem pathWrite_of_plainBytes (hp : PlainBytes id) (hne : id ≠ od 0x1170 3) (hb : rq.path ≠ .bar2)
    (h : writeStatus s id b true none = 0) :
    pathWrite s rq id b true none b = (odSetBytes (afterJournal s rq id b true) id b, 0) := by
  simp [pathWrite, serveWrite_of_accepted h, bytesEffect_of_plain hp, hne, hb]

/-- What an accepted write of the scalar `id` with the value v leaves of the device (R359, R373, R376). -/
def Stores (s t : State) (rq : Requester) (id v : Nat) (b : Bytes) : Prop :=
  OnlyObjects s t ∧ Journaled s t rq id b false 0 ∧ odGet t id = v ∧ t.odb = s.odb
  ∧ (∀ j, j ≠ id → ¬ ShowsBar2 rq j → odGet t j = odGet s j)
  ∧ (rq.path = .bar2 → odGet t (od 0x1170 4) = 0 ∧ odGet t (od 0x1170 5) = id % 2 ^ 24)

theorem stores_plain (h : writeStatus s id b false none = 0) :
    Stores s (showOnBar2 (odSet (afterJournal s rq id b false) id (maskReserved id (leNat b))) rq id 0) rq id
      (maskReserved id (leNat b)) b := by
  obtain ⟨ha, -, -⟩ := checks_of_writeStatus h
  obtain ⟨h4, h5⟩ := not_shows_of_accessStatus ha
  have hv := Nat.mod_eq_of_lt (maskReserved_lt_of_accepted h)
  have hbits : odBits (od 0x1170 5) = 32 := by decide +kernel
  unfold showOnBar2
  split
  next hb =>
    refine ⟨rfl, ⟨rfl, rfl⟩, ?_, rfl, fun j hj hs => ?_, fun _ => ⟨?_, ?_⟩⟩
    · rw [odGet_odSet_other _ _ h5, odGet_odSet_other _ _ h4, odGet_odSet_same, hv]
    · have hj4 : j ≠ od 0x1170 4 := fun e => hs ⟨hb, .inl e⟩
      have hj5 : j ≠ od 0x1170 5 := fun e => hs ⟨hb, .inr e⟩
      rw [odGet_odSet_other _ _ hj5, odGet_odSet_other _ _ hj4, odGet_odSet_other _ _ hj]
      rfl
    · rw [odGet_odSet_other _ _ (by decide), odGet_odSet_same, Nat.zero_mod]
    · rw [odGet_odSet_same, hbits]
      omega
  next hb =>
    refine ⟨rfl, ⟨rfl, rfl⟩, ?_, rfl, fun j hj _ => ?_, fun e => absurd e hb⟩
    · rw [odGet_odSet_same, hv]
    · rw [odGet_odSet_other _ _ hj]
      rfl

/-! The writes through the commands. -/

theorem ownWrite_of_alive (h : serverAlive s rq.path = true) :
    ownWrite s rq id b long = (pathWrite s rq id b long none b).1 := by
  simp [ownWrite, h]

/-- A command that is one write of a plain scalar (log entry 38). -/
theorem exists_stores_ownWrite (hp : PlainScalar id) (h : Accepted s rq id b false 0) :
    ∃ t, ownWrite s rq id b false = t ∧ Stores s t rq id (maskReserved id (leNat b)) b := by
  obtain ⟨halive, hst⟩ := h
  exact ⟨_, by rw [ownWrite_of_alive halive, pathWrite_of_plain hp hst], stores_plain hst⟩

/-- WRITE of a plain scalar: the write, and its answer. -/
theorem exists_stores_write (tr : BitVec 32) (index : BitVec 16) (sub : BitVec 8)
    (hp : PlainScalar (od index.toNat sub.toNat)) (h : Accepted s rq (od index.toNat sub.toNat) b false 0) :
    ∃ t, exec (.write rq tr index sub b) s = .next (answer t rq [] tr.toNat ⟨4, false, od index.toNat sub.toNat, 0, 0, []⟩)
      ∧ Stores s t rq (od index.toNat sub.toNat) (maskReserved (od index.toNat sub.toNat) (leNat b)) b := by
  obtain ⟨halive, hst⟩ := h
  refine ⟨_, ?_, stores_plain hst⟩
  simp [exec, execWrite, gdpCommand, halive, serveGdp, pathWrite_of_plain hp hst]

/-- What an accepted write of the STR or DOMAIN object `id` leaves of the device (R359, R376). -/
def StoresBytes (s t : State) (rq : Requester) (id : Nat) (b : Bytes) : Prop :=
  OnlyObjects s t ∧ Journaled s t rq id b true 0 ∧ t.od = s.od ∧ odGetBytes t id = b
  ∧ ∀ j, j ≠ id → odGetBytes t j = odGetBytes s j

theorem storesBytes_plain : StoresBytes s (odSetBytes (afterJournal s rq id b true) id b) rq id b :=
  ⟨rfl, ⟨rfl, rfl⟩, rfl, odGetBytes_odSetBytes_same .., fun _ hj => by rw [odGetBytes_odSetBytes_other _ _ hj]; rfl⟩

/-- A command that is one write of a plain STR or DOMAIN object, on another path than BAR2. -/
theorem exists_storesBytes_ownWrite (hp : PlainBytes id) (hne : id ≠ od 0x1170 3) (hb : rq.path ≠ .bar2)
    (h : Accepted s rq id b true 0) : ∃ t, ownWrite s rq id b true = t ∧ StoresBytes s t rq id b := by
  obtain ⟨halive, hst⟩ := h
  exact ⟨_, by rw [ownWrite_of_alive halive, pathWrite_of_plainBytes hp hne hb hst], storesBytes_plain⟩

/-- The last segment of a write whose bytes are the whole of a plain STR or DOMAIN object. -/
theorem serveWrite_last_of_plain (hp : PlainBytes id) (h : writeStatus s id b true none = 0) :
    serveWrite s rq id b true (layoutLength id b) b = (odSetBytes (afterJournal s rq id b true) id b, 0) := by
  rw [layoutLength_of_accepted h, serveWrite_of_accepted h, if_pos rfl, bytesEffect_of_plain hp]

theorem serveSegmentWrite_only (tr : BitVec 32) (hp : PlainBytes id) (hseg : s.dict.segment = none)
    (hsize : b.length ≤ segmentSize rq.path) (hlimit : b.length ≤ longLimit id) (h : writeStatus s id b true none = 0) :
    serveSegmentWrite s rq tr id 0 true b = (odSetBytes (afterJournal s rq id b true) id b, 0) := by
  have hlimit' : ¬ longLimit id < b.length := Nat.not_lt.mpr hlimit
  simp [serveSegmentWrite, expireSegment, hseg, hsize, hlimit', serveWrite_last_of_plain hp h]

theorem serveSegmentWrite_first (tr : BitVec 32) (hseg : s.dict.segment = none) (hsize : b.length = segmentSize rq.path)
    (hlimit : b.length ≤ longLimit id) (hlong : longObject id = true) (ha : accessStatus s id = 0) :
    serveSegmentWrite s rq tr id 0 false b
      = ({ s with dict := { s.dict with segment := some ⟨rq, tr, id, 1, b, now s⟩ } }, 0) := by
  have hlimit' : ¬ longLimit id < segmentSize rq.path := by omega
  simp [serveSegmentWrite, expireSegment, hseg, hsize, hlimit', hlong, ha]

/-- What a write is judged by, and what is journaled of it, does not depend on the open segmented write. -/
theorem writeStatus_closeSegment (s : State) (id : Nat) (b : Bytes) (long : Bool) (early : Option Nat) :
    writeStatus (closeSegment s) id b long early = writeStatus s id b long early := rfl

theorem storesBytes_of_closeSegment {t : State} (h : StoresBytes (closeSegment s) t rq id b) : StoresBytes s t rq id b := by
  obtain ⟨ho, hj, hod, hsame, hother⟩ := h
  refine ⟨?_, hj, hod, hsame, hother⟩
  unfold OnlyObjects at ho ⊢
  rw [ho]
  rfl

theorem serveSegmentWrite_last {x : SegWrite} {tr : BitVec 32} {k : Nat} (hp : PlainBytes id) (hseg : s.dict.segment = some x)
    (hrq : x.requester = rq) (htr : x.transaction = tr) (hid : x.id = id) (hnext : x.next = k)
    (hgap : now s ≤ x.last + segmentGap) (hsize : b.length ≤ segmentSize rq.path)
    (hlimit : (x.bytes ++ b).length ≤ longLimit id) (h : writeStatus s id (x.bytes ++ b) true none = 0) :
    serveSegmentWrite s rq tr id k true b
      = (odSetBytes (afterJournal (closeSegment s) rq id (x.bytes ++ b) true) id (x.bytes ++ b), 0) := by
  subst hrq htr hid hnext
  have hopen : expireSegment s = s := by
    simp only [expireSegment, hseg, if_neg (Nat.not_lt.mpr hgap)]
  rw [← writeStatus_closeSegment] at h
  have hlimit' : ¬ longLimit x.id < x.bytes.length + b.length := by simpa using hlimit
  simp [serveSegmentWrite, hopen, hseg, hsize, hlimit', serveWrite_last_of_plain hp h]

theorem exec_segmentWrite (tr : BitVec 32) (index k : BitVec 16) (sub : BitVec 8) (last : Bool) {t : State} {st : Nat}
    (halive : serverAlive s rq.path = true)
    (h : serveSegmentWrite s rq tr (od index.toNat sub.toNat) k.toNat last b = (t, st)) :
    exec (.segmentWrite rq tr index sub k last b) s
      = .next (answer t rq [] tr.toNat ⟨8, false, od index.toNat sub.toNat, st, k.toNat, []⟩) := by
  simp [exec, execSegmentWrite, gdpCommand, halive, serveGdp, h]

/-! The objects of the commands that are one write. -/

theorem plainScalar_planEntry (e : Fin 8) : PlainScalar (od 0x2000 (0x10 + e.val)) := by
  revert e; unfold PlainScalar; decide

theorem plainBytes_publisher (p : Fin 16) : PlainBytes (od 0x5100 (1 + p.val)) ∧ od 0x5100 (1 + p.val) ≠ od 0x1170 3 := by
  revert p; unfold PlainBytes; decide

theorem od_div {sub : Nat} (index : Nat) (h : sub < 256) : od index sub / 256 = index := by unfold od; omega
theorem od_mod {sub : Nat} (index : Nat) (h : sub < 256) : od index sub % 256 = sub := by unfold od; omega

/-- The block of a counter, and the counter's place in it (Table 17.7). -/
theorem counterPlace_cases (i : Fin 2528) :
    (∃ n k, n < 288 ∧ k < 8 ∧ i.val = 8 * n + k ∧ counterPlace i.val = ⟨0x4900 + n, k⟩)
    ∨ (∃ d k, d < 2 ∧ k < 16 ∧ i.val = 0x900 + 16 * d + k ∧ counterPlace i.val = ⟨0x4880 + d, k⟩)
    ∨ (∃ g k, g < 24 ∧ k < 8 ∧ i.val = 0x920 + 8 * g + k ∧ counterPlace i.val = ⟨0x48C0 + g, k⟩) := by
  have hi := i.isLt
  unfold counterPlace
  split
  · exact .inl ⟨i.val / 8, i.val % 8, by omega, by omega, by omega, rfl⟩
  · split
    · exact .inr (.inl ⟨(i.val - 0x900) / 16, (i.val - 0x900) % 16, by omega, by omega, by omega, rfl⟩)
    · exact .inr (.inr ⟨(i.val - 0x920) / 8, (i.val - 0x920) % 8, by omega, by omega, by omega, rfl⟩)

theorem counterOfConfig_config (i : Fin 2528) : counterOfConfig (counterPlace i.val).config = some i.val := by
  obtain ⟨n, k, hn, hk, hi, hp⟩ | ⟨n, k, hn, hk, hi, hp⟩ | ⟨n, k, hn, hk, hi, hp⟩ := counterPlace_cases i
  all_goals
    have hsub : 1 + k < 256 := by omega
    simp only [hp, CounterPlace.config, counterOfConfig, od_div _ hsub, od_mod _ hsub, Bool.and_eq_true, decide_eq_true_eq]
  · rw [if_pos (by omega)]; congr 1; omega
  · rw [if_neg (by omega), if_pos (by omega)]; congr 1; omega
  · rw [if_neg (by omega), if_neg (by omega), if_pos (by omega)]; congr 1; omega

/-- Every counter's configuration lies in the index area of the counters, at subindex 1 to 16 (Table 17.7). -/
theorem counterConfig_bounds (i : Fin 2528) :
    ∃ m j, (counterPlace i.val).config = od m j ∧ 0x4880 ≤ m ∧ m < 0x4A20 ∧ 1 ≤ j ∧ j ≤ 16 := by
  obtain ⟨n, k, hn, hk, -, hp⟩ | ⟨n, k, hn, hk, -, hp⟩ | ⟨n, k, hn, hk, -, hp⟩ := counterPlace_cases i
  all_goals exact ⟨_, _, by rw [hp]; rfl, by dsimp only; omega⟩

theorem plainScalar_counterConfig (i : Fin 2528) : PlainScalar (counterPlace i.val).config := by
  obtain ⟨m, j, hid, hm, hm', hj, hj'⟩ := counterConfig_bounds i
  have hsub : j < 256 := by omega
  rw [hid]
  refine ⟨?_, ?_, ?_, ?_⟩
  · simp [isPostTimed, isBalancing, isBankSwitch, isRetrain, isRetire, od_div _ hsub, od_mod _ hsub]
    simp only [od]
    omega
  · simp [isOverflowFlags, od_div _ hsub, od_mod _ hsub]
    omega
  · unfold isShape od
    simp
    omega
  · unfold od
    simp
    omega

/-! Reserved fields as masks (R12). -/

/-- A mask of n bits from bit k keeps the field of those bits. -/
theorem and_block (x n k : Nat) : x &&& ((2 ^ n - 1) * 2 ^ k) = x / 2 ^ k % 2 ^ n * 2 ^ k := by
  refine Nat.eq_of_testBit_eq fun i => ?_
  rw [← Nat.shiftLeft_eq, ← Nat.shiftLeft_eq]
  by_cases h : k ≤ i
  · simp [Nat.testBit_and, Nat.testBit_shiftLeft, Nat.testBit_mod_two_pow, Nat.testBit_div_two_pow, h, Bool.and_comm]
  · simp [Nat.testBit_and, Nat.testBit_shiftLeft, h]

/-- What the complement of a mask keeps is the rest. -/
theorem toNat_and_not (v m : BitVec 32) : (v &&& ~~~m).toNat = v.toNat - (v &&& m).toNat := by
  have hdisjoint : (v &&& ~~~m) &&& (v &&& m) = 0#32 := by
    ext i hi
    cases hm : m[i] <;> simp [hm]
  have hwhole : (v &&& ~~~m) + (v &&& m) = v := by
    rw [BitVec.add_eq_or_of_and_eq_zero _ _ hdisjoint]
    ext i hi
    cases hm : m[i] <;> simp [hm]
  have hsum := BitVec.toNat_add_of_and_eq_zero hdisjoint
  rw [hwhole] at hsum
  omega

theorem maskReserved_of_isPlanEntry {id : Nat} (h : isPlanEntry id = true) (v : Nat) :
    maskReserved id v = v - bits v 7 4 * 16 := by
  have hne (j : Nat) (hj : isPlanEntry j = false) : id ≠ j := by rintro rfl; simp [h] at hj
  rw [maskReserved, if_neg (hne _ (by decide)), if_neg (hne _ (by decide)), if_neg (hne _ (by decide)), if_pos h]

theorem maskReserved_of_counterOfConfig {id : Nat} (h : (counterOfConfig id).isSome = true) (hplan : isPlanEntry id = false)
    (v : Nat) : maskReserved id v = v - bits v 28 27 * 2 ^ 27 := by
  have hne (j : Nat) (hj : (counterOfConfig j).isSome = false) : id ≠ j := by rintro rfl; simp [h] at hj
  rw [maskReserved, if_neg (hne _ (by decide)), if_neg (hne _ (by decide)), if_neg (hne _ (by decide)),
    if_neg (by simp [hplan]), if_pos h]

/-- An entry of the rotation plan has bits 7 to 4 reserved. -/
theorem maskReserved_planEntry (e : Fin 8) (v : BitVec 32) :
    maskReserved (od 0x2000 (0x10 + e.val)) v.toNat = (v &&& 0xFFFFFF0F#32).toNat := by
  have hplan : isPlanEntry (od 0x2000 (0x10 + e.val)) = true := by revert e; decide
  rw [maskReserved_of_isPlanEntry hplan, show 0xFFFFFF0F#32 = ~~~0xF0#32 by decide, toNat_and_not, BitVec.toNat_and]
  exact congrArg (v.toNat - ·) (and_block v.toNat 4 4).symm

/-- A counter's configuration has bits 28 and 27 reserved. -/
theorem maskReserved_counterConfig (i : Fin 2528) (v : BitVec 32) :
    maskReserved (counterPlace i.val).config v.toNat = (v &&& 0xE7FFFFFF#32).toNat := by
  have hplan : isPlanEntry (counterPlace i.val).config = false := by
    obtain ⟨m, j, hid, hm, -, -, -⟩ := counterConfig_bounds i
    rw [hid]
    unfold isPlanEntry od
    simp
    omega
  rw [maskReserved_of_counterOfConfig (by simp [counterOfConfig_config]) hplan, show 0xE7FFFFFF#32 = ~~~0x18000000#32 by decide,
    toNat_and_not, BitVec.toNat_and]
  exact congrArg (v.toNat - ·) (and_block v.toNat 2 27).symm

theorem leNat_leBytes_toNat (v : BitVec 32) : leNat (leBytes v.toNat 4) = v.toNat := by
  rw [leNat_leBytes]
  exact Nat.mod_eq_of_lt v.isLt

/-! BAR2. -/

/-- A BAR2 write of a scalar whose upper bytes have the form of its type (R372) is a write of the bytes of its type. -/
theorem bar2Write_of_row {o : Nat} {r : ObjRow} (halign : o % 8 = 0) (hlen : b.length = 8) (hout : o < 0x8C0000 ∨ 0x8D0000 ≤ o)
    (hr : objRow (o / 8) = some r) (hl : r.type.long = false) (hu : upperForm r (leNat b) = true) :
    bar2Write s rq o b
      = (pathWrite s rq (o / 8) (b.take r.type.bytes) false none (b.take r.type.bytes)).1 := by
  have hout' : inWindow o = false := by simp [inWindow]; omega
  simp [bar2Write, halign, hlen, hout', hr, hl, hu]

theorem bar2Write_window {o : Nat} (halign : o % 8 = 0) (hlen : b.length = 8) (hlo : 0x8C0000 ≤ o) (hhi : o < 0x8D0000) :
    bar2Write s rq o b
      = odSet (odSet { s with dict := { s.dict with window := Memory.write s.dict.window 0 (o - 0x8C0000) b } } (od 0x1170 4) 0)
          (od 0x1170 5) 0 := by
  simp [bar2Write, halign, hlen, inWindow, hlo, hhi]

theorem exec_bar2Access_write {req : BitVec 16} {o n : Nat} (hmode : attachMode s ≠ 0) (halive : serverAlive s .bar2 = true) :
    exec (.bar2Access req o n (some b)) s = .next (bar2Write s (bar2Requester req) o b) := by
  simp [exec, execBar2Access, hmode, halive]

theorem stores_bar2Access {req : BitVec 16} {o n : Nat} {r : ObjRow} (hmode : attachMode s ≠ 0) (halign : o % 8 = 0)
    (hlen : b.length = 8) (hout : o < 0x8C0000 ∨ 0x8D0000 ≤ o) (hr : objRow (o / 8) = some r) (hl : r.type.long = false)
    (hu : upperForm r (leNat b) = true) (hp : PlainScalar (o / 8))
    (h : Accepted s (bar2Requester req) (o / 8) (b.take r.type.bytes) false 0) :
    ∃ t, exec (.bar2Access req o n (some b)) s = .next t
      ∧ Stores s t (bar2Requester req) (o / 8) (maskReserved (o / 8) (leNat (b.take r.type.bytes))) (b.take r.type.bytes) := by
  obtain ⟨halive, hst⟩ := h
  refine ⟨_, ?_, stores_plain hst⟩
  rw [exec_bar2Access_write hmode halive, bar2Write_of_row halign hlen hout hr hl hu, pathWrite_of_plain hp hst]

/-- Settles O45: each command comes to `serveWrite` of a plain object, which stores it. -/
theorem dictionaryWrites : Obligations.DictionaryWrites := by
  unfold Obligations.DictionaryWrites
  intro rq tr cfg index k req sub e p i o b s
  refine ⟨fun hp h => exists_stores_write tr index sub hp h,
    fun hp hseg hsize hlimit => ⟨fun ⟨halive, hst⟩ => ⟨_, ?_, storesBytes_plain⟩, fun hfull hlong ha halive => ?_⟩,
    fun x hp hseg hrq htr hid hnext hgap hsize hlimit ⟨halive, hst⟩ => ?_,
    fun h => ?_, fun h hbar => ?_, fun h => ?_,
    fun hmode halive halign hlen => ⟨fun hlo hhi => ?_, fun r hout hr hl hu hp h => ?_⟩⟩
  · exact exec_segmentWrite tr index 0 sub true halive (serveSegmentWrite_only tr hp hseg hsize hlimit hst)
  · exact exec_segmentWrite tr index 0 sub false halive (serveSegmentWrite_first tr hseg hfull hlimit hlong ha)
  · obtain ⟨ho, hj, hod, hsame, -⟩ := storesBytes_of_closeSegment (storesBytes_plain (s := closeSegment s))
    exact ⟨_, exec_segmentWrite tr index k sub true halive
      (serveSegmentWrite_last hp hseg hrq htr hid hnext hgap hsize hlimit hst), ho, hj, hod, hsame, rfl⟩
  · obtain ⟨t, ht, hstores⟩ := exists_stores_ownWrite (plainScalar_planEntry e) h
    rw [leNat_leBytes_toNat, maskReserved_planEntry] at hstores
    exact ⟨t, congrArg _ ht, hstores⟩
  · obtain ⟨hp, hne⟩ := plainBytes_publisher p
    obtain ⟨t, ht, hstores⟩ := exists_storesBytes_ownWrite hp hne hbar h
    exact ⟨t, congrArg _ ht, hstores⟩
  · obtain ⟨t, ht, hstores⟩ := exists_stores_ownWrite (plainScalar_counterConfig i) h
    rw [leNat_leBytes_toNat, maskReserved_counterConfig] at hstores
    exact ⟨t, congrArg _ ht, hstores⟩
  · rw [exec_bar2Access_write hmode halive, bar2Write_window halign hlen hlo hhi]
  · exact stores_bar2Access hmode halign hlen hout hr hl hu hp h

end Sys2Proof.Machine
end
